-- ==== Sys2Proof/Word.lean ====
section
/-! DEFINITION. The word and byte types of the OTB612 (00_scope, Conventions: a word is 32 bits,
bit 0 the least significant). -/

namespace Sys2Proof

/-- A 32-bit word: one word slot of the SPI port, one head or body word of a message. -/
abbrev Word := BitVec 32

/-- An 8-bit byte: the command byte, the link status byte, the 8-bit counters. -/
abbrev Byte := BitVec 8

end Sys2Proof
end

