-- ==== Sys2Proof/Config.lean ====
section
/-! DEFINITION. The values the manual leaves open, as constants without a body (log entry 10). -/

namespace Sys2Proof.Config

/-- Word 2 of READ_CHANNEL when the progress lies outside −2^31..2^31−1 and so has no signed 32-bit
value (R78, R101). DESIGN CHOICE (log entry 10): the manual states no result there, so nothing
constrains this word. Safe: no claim can rest on it. -/
opaque progressOutOfRange : Int → Word

end Sys2Proof.Config
end

