-- ==== Sys2Proof/Syntax.lean ====
section
/-! DEFINITION. The commands of the block: one constructor per row of spec/opcode_table.json.
A row of the Command Engine (PING and the rows after it, and UNKNOWN_KIND) has no operand here: its
operands are in the message at the front of the CIQ (log entry 1). -/

namespace Sys2Proof

/-- The two ends of a read word slot (R5): the port decides what to present when the slot opens and
changes its state when the 32nd bit has been clocked. A slot that was not opened before is opened
and completed at once (log entry 7). -/
inductive SlotPhase where
  | opens
  | completes
deriving DecidableEq, Repr

/-- The safety inputs of R161. -/
inductive SafetyPin where
  | tripIn
  | ovl (bank : Fin 3)
  | supplyOk
deriving DecidableEq, Repr

/-- The commands, in the order of the table. Levels are Bool, true for HIGH. A count-input pin is
numbered 2k for CAk and 2k+1 for CBk, as in READ_INPUTS word 1 (R56). -/
inductive Instr where
  | pushHead (word : Word)
  | pushBody (word : Word)
  | popHead (phase : SlotPhase)
  | popBody (phase : SlotPhase)
  | linkCountsRead (phase : SlotPhase)
  /-- A word written to LINK_CTRL, for its bit 0 (R16, R194; log entry 8). Unless another word is given, it is the
  word that sets this bit alone. -/
  | discardAssembly (word : Word := 0x00000001#32)
  /-- The same, for its bit 1. -/
  | discardCiq (word : Word := 0x00000002#32)
  /-- The same, for its bit 2. -/
  | discardRnq (word : Word := 0x00000004#32)
  /-- A word written to STATUS, for its bit 16 (R193; log entry 8), by default the word that sets it alone. -/
  | clearFramingSticky (word : Word := 0x00010000#32)
  /-- The same, for its bit 17. -/
  | clearNoticeLostSticky (word : Word := 0x00020000#32)
  | attnMaskWrite (word : Word)
  | ignoredRegisterWrite (index : BitVec 7) (word : Word)
  | transactionEnd
  | powerOnReset
  | rstnReset
  | initialisationComplete
  | unknownKind
  | ping
  | identify
  | readStatus
  | setInputs
  | readInputs
  | stageMode
  | stageTargets
  | stageTerms
  | stageGuard
  | commit
  | readConfig
  | stageMark
  | clearMarks
  | readMarks
  | start
  | restart
  | quench
  | halt
  | readChannel
  | readCaptures
  | readRate
  | bindLine
  | unbindLine
  | shapeLine
  | shapePair
  | driveLines
  | readLines
  | setTrip
  | trip
  | resume
  | readTrip
  | readFaults
  | ackFault
  | sealRaise
  | engineReset
  /-- The pin takes the level given (R38). -/
  | countInputChange (pin : Fin 12) (level : Bool)
  /-- The candidates of the pins named, bit i for pin i, are accepted in one instant (R38, R32). -/
  | countFilterAccept (pins : BitVec 12)
  | dinChange (pin : Fin 8) (level : Bool)
  /-- The candidates of the DINs named, bit n for DINn, are accepted in one instant (R49). -/
  | dinFilterAccept (pins : BitVec 8)
  | tripInAssert
  | tripInRelease
  | overloadAssert (bank : Fin 3)
  | overloadRelease (bank : Fin 3)
  | supplyLoss
  | supplyReturn
  | pulseEnd (line : Fin 12)
  /-- The gap of pair j, lines 2j and 2j+1. -/
  | gapEnd (pair : Fin 6)
  | stallExpiry (channel : Fin 6)
  | watchExpiry
  | windowEnd (channel : Fin 6)
  /-- CS_N falls; the command byte the host then clocks, none when CS_N rises before it is whole
  (R1, R3; log entry 6). -/
  | transactionStart (command : Option Byte)
  | safetyInputChange (pin : SafetyPin) (level : Bool)
  | rstnRelease
  | vddLoss
deriving DecidableEq, Repr

end Sys2Proof
end

