-- ==== Sys2Proof/Machine/Wire.lean ====
section
/-! DEFINITION. The wire of the Host Port: the order of the bits of a transaction, the register indices and
the command byte (R1, R191), and the rows that one word slot, and one whole transaction, spell (R4, R5,
R16, R193, R194). -/

namespace Sys2Proof.Machine

/-! ### Bit order (R1) -/

/-- The bits of a byte in the order of the wire: most significant bit first. -/
def byteBits (b : Byte) : List Bool :=
  [b.getLsbD 7, b.getLsbD 6, b.getLsbD 5, b.getLsbD 4, b.getLsbD 3, b.getLsbD 2, b.getLsbD 1, b.getLsbD 0]

/-- The bits of a word in the order of the wire: most significant byte first. -/
def wordBits (w : Word) : List Bool :=
  byteBits (w.extractLsb' 24 8) ++ byteBits (w.extractLsb' 16 8) ++ byteBits (w.extractLsb' 8 8)
    ++ byteBits (w.extractLsb' 0 8)

/-- The byte that eight bits of the wire spell. -/
def byteOfBits (bits : List Bool) : Byte := bits.foldl (fun b x => b <<< 1 ||| (BitVec.ofBool x).setWidth 8) 0#8

/-- The word that 32 bits of the wire spell. -/
def wordOfBits (bits : List Bool) : Word :=
  byteOfBits (bits.take 8) ++ byteOfBits ((bits.drop 8).take 8) ++ byteOfBits ((bits.drop 16).take 8)
    ++ byteOfBits ((bits.drop 24).take 8)

/-! ### The command byte and the register indices (R1, R191) -/

/-- The command byte of a write and of a read of a register. -/
def writeByte (index : BitVec 7) : Byte := index.setWidth 8
def readByte (index : BitVec 7) : Byte := 0x80#8 ||| index.setWidth 8

/-- Bit 7 is the direction, 1 for read; bits 6..0 are the index. -/
def isRead (command : Byte) : Bool := command.getLsbD 7
def addressed (command : Byte) : BitVec 7 := command.setWidth 7

def indexIdent : BitVec 7 := 0x00#7
def indexStatus : BitVec 7 := 0x01#7
def indexInSpace : BitVec 7 := 0x02#7
def indexOutWaiting : BitVec 7 := 0x03#7
def indexLinkCounts : BitVec 7 := 0x04#7
def indexLinkCtrl : BitVec 7 := 0x05#7
def indexAttnMask : BitVec 7 := 0x06#7
def indexPushHead : BitVec 7 := 0x08#7
def indexPushBody : BitVec 7 := 0x09#7
def indexPopHead : BitVec 7 := 0x0A#7
def indexPopBody : BitVec 7 := 0x0B#7

/-! ### What a written word spells (R4, R16, R193, R194) -/

/-- The bits of LINK_CTRL: discard assembly, discard CIQ, discard RNQ (R194). -/
def bitAssembly : Nat := 0
def bitCiq : Nat := 1
def bitRnq : Nat := 2

/-- The bits of STATUS that clear: framing sticky, notice-lost sticky (R193). -/
def bitFraming : Nat := 16
def bitNoticeLost : Nat := 17

/-- The bits of a register that act when they are written as 1, in the order in which they act (R16, R193). -/
def actingBits (index : BitVec 7) : List Nat :=
  if index = indexLinkCtrl then [bitAssembly, bitCiq, bitRnq]
  else if index = indexStatus then [bitFraming, bitNoticeLost] else []

/-- The acting bits that a word sets. -/
def partsOf (index : BitVec 7) (word : Word) : List Nat := (actingBits index).filter (word.getLsbD ·)

/-- A write to this register index with this first word has no write behaviour, so it is ignored (R4,
R191): the index is neither ATTN_MASK nor a push doorway, and no bit of the word acts. -/
def isIgnoredWrite (index : BitVec 7) (word : Word) : Bool :=
  index != indexAttnMask && index != indexPushHead && index != indexPushBody && (partsOf index word).isEmpty

/-- The row of an acting bit of LINK_CTRL or STATUS. -/
def bitRow (word : Word) (b : Nat) : Instr :=
  if b = bitAssembly then .discardAssembly word
  else if b = bitCiq then .discardCiq word
  else if b = bitRnq then .discardRnq word
  else if b = bitFraming then .clearFramingSticky word
  else .clearNoticeLostSticky word

/-- The rows of one whole written word, in the order in which they are taken (log entry 8). -/
def writtenRows (index : BitVec 7) (word : Word) : List Instr :=
  if index = indexPushHead then [.pushHead word]
  else if index = indexPushBody then [.pushBody word]
  else if index = indexAttnMask then [.attnMaskWrite word]
  else if isIgnoredWrite index word then [.ignoredRegisterWrite index word]
  else (partsOf index word).map (bitRow word)

/-- The rows of one whole read slot. The reads of the other registers change nothing and have no row (log
entry 6). -/
def readRows (index : BitVec 7) : List Instr :=
  if index = indexPopHead then [.popHead .completes]
  else if index = indexPopBody then [.popBody .completes]
  else if index = indexLinkCounts then [.linkCountsRead .completes]
  else []

/-- The rows of one whole word slot, with the word that MOSI carried: a read ignores it (R1). -/
def slotRow (command : Byte) (word : Word) : List Instr :=
  if isRead command then readRows (addressed command) else writtenRows (addressed command) word

/-! ### What a transaction spells (R1, R5) -/

/-- The rows of the given number of whole word slots; bits beyond them spell nothing. -/
def slotsRows (command : Byte) : Nat → List Bool → List Instr
  | 0, _ => []
  | n + 1, bits => slotRow command (wordOfBits (bits.take 32)) ++ slotsRows command n (bits.drop 32)

/-- The rows of a transaction that carries the given bits on MOSI, each read slot taken whole: CS_N falls,
the first eight bits are the command byte, every 32 bits after it are a word slot, a partial slot is
discarded, and CS_N rises. With fewer than eight bits no register is addressed. -/
def transactionRows (mosi : List Bool) : List Instr :=
  if mosi.length < 8 then [.transactionStart none, .transactionEnd]
  else
    [.transactionStart (some (byteOfBits (mosi.take 8)))]
      ++ slotsRows (byteOfBits (mosi.take 8)) ((mosi.length - 8) / 32) (mosi.drop 8) ++ [.transactionEnd]

end Sys2Proof.Machine
end

