-- ==== Sys2Proof/WellFormed.lean ====
section
/-! DEFINITION. Which commands are well formed. Channel, line, pair, bank and pin numbers are bounded
by their types; what remains is checked here. -/

namespace Sys2Proof

open Sys2Proof.Machine

/-- A command is well formed when the row of an acting bit carries a word that sets it (R16, R193), an
ignored write is one that the port ignores (R4, R191), and an acceptance names at least one pin (R38, R49). -/
def Instr.wellFormed : Instr → Bool
  | .discardAssembly word => word.getLsbD bitAssembly
  | .discardCiq word => word.getLsbD bitCiq
  | .discardRnq word => word.getLsbD bitRnq
  | .clearFramingSticky word => word.getLsbD bitFraming
  | .clearNoticeLostSticky word => word.getLsbD bitNoticeLost
  | .ignoredRegisterWrite index word => isIgnoredWrite index word
  | .countFilterAccept pins => pins != 0#12
  | .dinFilterAccept pins => pins != 0#8
  | _ => true

end Sys2Proof
end

