-- ==== Sys2Proof/Decode.lean ====
section
/-! DEFINITION. Reading a command from a table word. spec/opcode_table.json gives no row any bits
("fields" is empty in every row, and no row has "fixed"), so no word spells a command. The words that
do carry commands are messages, which PUSH_HEAD and PUSH_BODY bring in (R7 to R10), and the Command
Engine reads their kind (R20; Machine/Intake.lean). -/

namespace Sys2Proof

/-- No row of the table has bits, so no word is a command. -/
def decodeTableWord (_nbits _w : Nat) : Option Instr := none

end Sys2Proof
end

