-- ==== Sys2Proof/Machine/State.lean ====
section
/-! DEFINITION. The state of the OTB612 as plain data, and State.reset. Every piece is listed in
INVENTORY.md under State with the rule that names it. Times are held in units of half a microsecond,
of which every duration of the manual is a multiple (log entry 3). Levels of input pins are Bool,
true for HIGH. -/

namespace Sys2Proof.Machine

/-- The part has no condition that stops it: what the manual calls a fault is a ledger record, a
channel state or a permit state, all of them State (log entry 20). So no fault exists, and nothing
raises one. -/
inductive Fault
deriving DecidableEq, Repr

/-- Why a step has no meaning. -/
inductive Refusal where
  /-- The command has no meaning yet. Raised by exec's arm of that command only. Safe: the run stops. -/
  | notModelled (mnemonic : String)
deriving DecidableEq, Repr

/-! ### Messages (R19) -/

/-- A message: its head word and its body words. -/
structure Message where
  head : Word
  body : List Word
deriving DecidableEq, Repr

/-! ### Channel configuration (R59, R106) -/

inductive Mode where
  | off | tally | span | loop | pace
deriving DecidableEq, Repr

inductive Direction where
  | up | down
deriving DecidableEq, Repr

inductive DecodeKind where
  | step | stepDir | twoLine | quad1 | quad2 | quad4
deriving DecidableEq, Repr

inductive Edge where
  | rise | fall
deriving DecidableEq, Repr

inductive Reference where
  | absolute | toGo
deriving DecidableEq, Repr

inductive MarkOrder where
  | sequential | all
deriving DecidableEq, Repr

inductive WindowLength where
  | w10 | w100 | w1000
deriving DecidableEq, Repr

inductive EndPolicy where
  | release | hold
deriving DecidableEq, Repr

inductive TermOperator where
  | conj | disj
deriving DecidableEq, Repr

/-- A DIN with an invert flag of its own: a reference of a term (R50), or a gate (R54). -/
structure DinRef where
  din : Fin 8
  inverted : Bool
deriving DecidableEq, Repr

/-- A term: NONE is the empty list of references (R50). -/
structure Term where
  operator : TermOperator
  refs : List DinRef
deriving DecidableEq, Repr

inductive CaptureEdge where
  | rise | fall | both
deriving DecidableEq, Repr

structure CaptureSource where
  din : Fin 8
  edge : CaptureEdge
deriving DecidableEq, Repr

inductive MarkAction where
  | nothing | set | clear | toggle | pulse
deriving DecidableEq, Repr

inductive Crossing where
  | rising | falling
deriving DecidableEq, Repr

/-- A mark record (R106). The target is a signed value in two's complement; line NONE is none. -/
structure Mark where
  target : Word
  line : Option (Fin 12)
  action : MarkAction
  width : BitVec 16
  notify : Bool
  capture : Bool
  crossing : Crossing
deriving DecidableEq, Repr

/-- One configuration set of a channel (R58, R59). The first six fields are the structural ones. -/
structure ChannelConfig where
  mode : Mode
  direction : Direction
  decode : DecodeKind
  edge : Edge
  reference : Reference
  order : MarkOrder
  final : BitVec 31
  repeats : BitVec 16
  window : WindowLength
  endPolicy : EndPolicy
  startTerm : Term
  restartTerm : Term
  quenchTerm : Term
  resyncTerm : Term
  gate : Option DinRef
  captureSource : Option CaptureSource
  countFilter : BitVec 2
  stall : Byte
  faultTrips : Bool
  notifyCycles : Bool
  notifyRate : Bool
  notifyState : Bool
  marks : List Mark
deriving DecidableEq, Repr

/-! ### Channels (R80, R115, R125, R131) -/

inductive ChannelState where
  | off | idle | armed | running | quenched | complete | faulted | lent
deriving DecidableEq, Repr

/-- The two faults of a channel (R179: a channel remembers which of the two faulted it). -/
inductive ChannelFault where
  | stall | overflow
deriving DecidableEq, Repr

/-- The arming state of the active list (R115): one flag per mark under ALL, the head under SEQUENCE. -/
inductive Arming where
  | flags (armed : BitVec 8)
  | head (index : Option Nat)
deriving DecidableEq, Repr

/-- A capture record (R125). -/
structure CaptureRecord where
  value : Word
  index : BitVec 12
  cause : BitVec 4
  ordinal : BitVec 16
deriving DecidableEq, Repr

/-- The window timer while it runs: the time left and the length it was started with (R131). -/
structure WindowTimer where
  left : Nat
  length : WindowLength
deriving DecidableEq, Repr

structure Channel where
  staged : ChannelConfig
  active : ChannelConfig
  state : ChannelState
  faultedBy : Option ChannelFault
  commitPending : Bool
  value : Word
  cycleIndex : BitVec 16
  resyncPending : Bool
  stallLeft : Option Nat
  arming : Arming
  phaseErrors : Byte
  heldStart : Bool
  heldRestart : Bool
  heldQuench : Bool
  heldResync : Bool
  gateOpen : Bool
  captures : List CaptureRecord
  overcapture : Byte
  accumulator : Word
  windowLeft : Option WindowTimer
  windowCount : BitVec 16
  ring : List Word
  lastWindowOrdinal : BitVec 16
deriving DecidableEq, Repr

/-! ### Inputs (R38, R48, R161) -/

/-- A filtered input: the level at the pin, the filtered level, and the time for which a candidate has
been held, none when there is no candidate. A candidate's level is the opposite of the filtered level. -/
structure FilteredInput where
  pin : Bool
  filtered : Bool
  held : Option Nat
deriving DecidableEq, Repr

/-- A discrete input with its filter code and its device-wide invert flag (R48). -/
structure DiscreteInput where
  input : FilteredInput
  code : BitVec 2
  invert : Bool
deriving DecidableEq, Repr

/-- A safety input. owed: it was found at its active level when initialisation ended, and its assertion
is still to be taken at the first instant (R161, R187; log entry 12). -/
structure SafetyInput where
  input : FilteredInput
  owed : Bool
deriving DecidableEq, Repr

/-- The count-input pins (CAk at 2k, CBk at 2k+1) and the discrete inputs. restarted: the count inputs whose
candidates have restarted within the instant in progress, bit i for pin i; they are accepted at a later
instant (R39). -/
structure FrontEnd where
  count : Vector FilteredInput 12
  din : Vector DiscreteInput 8
  restarted : BitVec 12
deriving DecidableEq, Repr

structure SafetyInputs where
  tripIn : SafetyInput
  ovl : Vector SafetyInput 3
  supplyOk : SafetyInput
deriving DecidableEq, Repr

/-! ### The Host Port (R3 to R17) -/

/-- How an opened read slot ends: it hands out what it presented, it is refused, or an ENGINE_RESET has
discarded what it presented, so that its end changes nothing (R5). -/
inductive SlotOutcome where
  | hands | refuses | void
deriving DecidableEq, Repr

/-- An opened read slot: the word presented on MISO and how the slot ends (R5). -/
structure Slot where
  presented : Word
  outcome : SlotOutcome
deriving DecidableEq, Repr

/-- How far the first word slot of a transaction has gone, for the registers on which only the first word
acts (R4): no word slot yet; a written word whose acting bits are taken one by one, with those still to take
(R16, R193; log entry 8); or over. -/
inductive FirstWord where
  | awaited
  | acting (word : Word) (left : List Nat)
  | past
deriving DecidableEq, Repr

/-- A transaction in progress, CS_N low (R1, R6). active: it began while ready was 1. status: the link
status byte sampled at its start (R2). command: its command byte. first: its first word slot. slot: the
read slot in progress. -/
structure Transaction where
  active : Bool
  status : Byte
  command : Option Byte
  first : FirstWord
  slot : Option Slot
deriving DecidableEq, Repr

/-- The MISO pin: at high impedance, or driven with a byte (the link status byte) or with the word of a word
slot; it holds what the last whole byte or word slot carried (R1, R2; log entry 6). -/
inductive Miso where
  | highImpedance
  | byte (b : Byte)
  | word (w : Word)
deriving DecidableEq, Repr

structure HostPort where
  transaction : Option Transaction
  assembly : Option Message
  ciq : List Message
  popBuffer : List Word
  refusedNow : Bool
  refusedLast : Bool
  framingCount : Byte
  refusedCount : Byte
  skippedCount : Byte
  framingSticky : Bool
  noticeLostSticky : Bool
  attnMask : BitVec 4
  miso : Miso
deriving DecidableEq, Repr

/-- The Reply/Notice Queue with its loss counters, the notice sequence number and the Event Ordinal
(R26, R27, R30, R31). reserved: a slot is held for the reply of the command in execution. -/
structure Outbox where
  rnq : List Message
  reserved : Bool
  lostMark : Byte
  lostRun : Byte
  lostData : Byte
  lostSafety : Byte
  sequence : Byte
  ordinal : BitVec 16
deriving DecidableEq, Repr

/-! ### Power and reset (R35, R187) -/

inductive ResetCause where
  | power | pin
deriving DecidableEq, Repr

/-- vddGood: the logic supply is at its level. rstnLow: RST_N is low. The part is held in reset while
the first is false or the second true; it is initialising while neither holds and ready is 0. -/
structure Power where
  vddGood : Bool
  rstnLow : Bool
  ready : Bool
  cause : ResetCause
deriving DecidableEq, Repr

/-! ### The Line Matrix (R138) -/

/-- The level of an output pin; opened is OPEN, not driven. -/
inductive PinLevel where
  | low | high | opened
deriving DecidableEq, Repr

inductive Owner where
  | nobody | host | channel (k : Fin 6)
deriving DecidableEq, Repr

structure Line where
  owner : Owner
  inverted : Bool
  safe : PinLevel
  active : Bool
  pulseLeft : Option Nat
deriving DecidableEq, Repr

/-- Lines 2j and 2j+1: whether they are paired, the gap field of line 2j, and the gap phase, none for
SETTLED. Line 2j is PAIR_EVEN exactly when line 2j+1 is PAIR_ODD, so one flag holds both. -/
structure Pair where
  paired : Bool
  gap : Byte
  gapLeft : Option Nat
deriving DecidableEq, Repr

structure LineMatrix where
  lines : Vector Line 12
  pairs : Vector Pair 6
  shut : Vector Bool 3
deriving DecidableEq, Repr

/-! ### The Trip Unit (R159, R162, R170, R172) -/

inductive Permit where
  | withheld | permitted | tripped
deriving DecidableEq, Repr

inductive ChannelPolicy where
  | freeze | coast
deriving DecidableEq, Repr

inductive HostLossPolicy where
  | hold | trip
deriving DecidableEq, Repr

structure TripConfig where
  tripInEnable : Bool
  tripInActiveHigh : Bool
  overloadEnable : Bool
  supplyEnable : Bool
  policy : ChannelPolicy
  hostLoss : HostLossPolicy
  autoChannel : Option (Fin 6)
  watch : Byte
deriving DecidableEq, Repr

/-- The source of a withdrawal, with its bank or channel where it has one (R163, R174). -/
inductive TripSource where
  | tripIn | overload (bank : Fin 3) | supply | hostLost | soft | channelFault (k : Fin 6)
deriving DecidableEq, Repr

structure LastTrip where
  source : TripSource
  ordinal : BitVec 16
deriving DecidableEq, Repr

structure TripUnit where
  permit : Permit
  config : TripConfig
  watchLeft : Option Nat
  hostLost : Bool
  handed : Vector Bool 6
  last : Option LastTrip
deriving DecidableEq, Repr

/-! ### The Fault Ledger (R178) -/

inductive LedgerSource where
  | channel (k : Fin 6) | bank (b : Fin 3) | tripIn | host | supply | soft
deriving DecidableEq, Repr

inductive LedgerKind where
  | stall | overflow | overload | supplyLoss | tripInput | softTrip | hostLost
deriving DecidableEq, Repr

/-- A ledger record; active is the condition ACTIVE, otherwise STANDING. -/
structure LedgerRecord where
  ordinal : BitVec 16
  source : LedgerSource
  kind : LedgerKind
  active : Bool
  repeats : BitVec 4
deriving DecidableEq, Repr

structure Ledger where
  records : List LedgerRecord
  lost : Bool
deriving DecidableEq, Repr

/-! ### The whole state -/

/-- The state of the part, with the queue of waiting commands. instant: while an instant is in progress, the
levels that the output pins hold until it ends (R148; log entry 11). -/
structure State where
  pending : List Instr
  power : Power
  port : HostPort
  out : Outbox
  inputs : FrontEnd
  safety : SafetyInputs
  channels : Vector Channel 6
  matrix : LineMatrix
  trip : TripUnit
  ledger : Ledger
  sealLevel : BitVec 2
  instant : Option (Vector PinLevel 12)
deriving DecidableEq, Repr

/-! ### Reset values (R18, R37, R57, R59, R105, R124, R137, R158, R177, R190) -/

def Term.never : Term := ⟨.conj, []⟩

/-- The defaults of R59. -/
def ChannelConfig.default : ChannelConfig where
  mode := .off
  direction := .up
  decode := .step
  edge := .rise
  reference := .absolute
  order := .sequential
  final := 1#31
  repeats := 0#16
  window := .w100
  endPolicy := .release
  startTerm := .never
  restartTerm := .never
  quenchTerm := .never
  resyncTerm := .never
  gate := none
  captureSource := none
  countFilter := 1#2
  stall := 0#8
  faultTrips := false
  notifyCycles := false
  notifyRate := false
  notifyState := false
  marks := []

def Channel.reset : Channel where
  staged := .default
  active := .default
  state := .off
  faultedBy := none
  commitPending := false
  value := 0#32
  cycleIndex := 0#16
  resyncPending := false
  stallLeft := none
  arming := .head none
  phaseErrors := 0#8
  heldStart := false
  heldRestart := false
  heldQuench := false
  heldResync := false
  gateOpen := true
  captures := []
  overcapture := 0#8
  accumulator := 0#32
  windowLeft := none
  windowCount := 0#16
  ring := []
  lastWindowOrdinal := 0#16

def Line.reset : Line := ⟨.nobody, false, .opened, false, none⟩

def Pair.reset : Pair := ⟨false, 10#8, none⟩

def LineMatrix.reset : LineMatrix :=
  ⟨Vector.replicate 12 Line.reset, Vector.replicate 6 Pair.reset, Vector.replicate 3 false⟩

def TripConfig.reset : TripConfig :=
  ⟨false, false, false, false, .freeze, .hold, none, 0#8⟩

def TripUnit.reset : TripUnit :=
  ⟨.withheld, .reset, none, false, Vector.replicate 6 false, none⟩

def HostPort.reset : HostPort where
  transaction := none
  assembly := none
  ciq := []
  popBuffer := []
  refusedNow := false
  refusedLast := false
  framingCount := 0#8
  refusedCount := 0#8
  skippedCount := 0#8
  framingSticky := false
  noticeLostSticky := false
  attnMask := 0#4
  miso := .highImpedance

def Outbox.reset : Outbox := ⟨[], false, 0#8, 0#8, 0#8, 0#8, 0#8, 0#16⟩

/-- A pin that stands at the given level with its filtered level equal to it. -/
def FilteredInput.at (level : Bool) : FilteredInput := ⟨level, level, none⟩

/-- The levels of the pins are the surroundings' and the manual gives none. DESIGN CHOICE (log entry
4, unsafe): CA, CB, DIN and OVL are LOW, TRIP_IN and SUPPLY_OK are HIGH, so that no cause is present. -/
def FrontEnd.reset : FrontEnd :=
  ⟨Vector.replicate 12 (.at false), Vector.replicate 8 ⟨.at false, 2#2, false⟩, 0#12⟩

def SafetyInputs.reset : SafetyInputs :=
  ⟨⟨.at true, false⟩, Vector.replicate 3 ⟨.at false, false⟩, ⟨.at true, false⟩⟩

/-- The part right after a power-on reset: the supply is good, RST_N is high, every state holds its
power-on value, and initialisation is in progress, so ready is 0 (R6, R18, R187; log entry 5). -/
def State.reset : State where
  pending := []
  power := ⟨true, false, false, .power⟩
  port := .reset
  out := .reset
  inputs := .reset
  safety := .reset
  channels := Vector.replicate 6 Channel.reset
  matrix := .reset
  trip := .reset
  ledger := ⟨[], false⟩
  sealLevel := 0#2
  instant := none

end Sys2Proof.Machine
end

