-- ==== Sys2Proof/Machine/Operands.lean ====
section
/-! DEFINITION. Operand forms: bit fields of words, the head word (R19), the body words of the
configuration, mark and ledger commands and their inverse, numeric codes, capacities and durations.
-/

namespace Sys2Proof.Machine

/-! ### Bit fields -/

/-- Bit i of a word. -/
def bit (w : Word) (i : Nat) : Bool := w.getLsbD i

/-- The field of the given width whose lowest bit is lo. -/
def field (w : Word) (lo width : Nat) : BitVec width := w.extractLsb' lo width

/-- The word that holds x with its lowest bit at lo and 0 elsewhere. -/
def place {n : Nat} (lo : Nat) (x : BitVec n) : Word := x.setWidth 32 <<< lo

/-- The word that holds a flag at the given bit and 0 elsewhere. -/
def placeFlag (lo : Nat) (b : Bool) : Word := place lo (BitVec.ofBool b)

/-- The word that holds a number with its lowest bit at lo and 0 elsewhere. -/
def placeNat (lo n : Nat) : Word := BitVec.ofNat 32 n <<< lo

/-- The word whose bit lo+i is the i-th flag of the list. -/
def placeFlags (lo : Nat) : List Bool → Word
  | [] => 0#32
  | b :: rest => placeFlag lo b ||| placeFlags (lo + 1) rest

/-- An 8-bit counter that saturates at 255, raised by n. -/
def saturatingAdd (x : Byte) (n : Nat) : Byte :=
  if x.toNat + n ≤ 255 then BitVec.ofNat 8 (x.toNat + n) else 255#8

/-- n units of time in units of d, rounded up. -/
def ceilDiv (n d : Nat) : Nat := (n + (d - 1)) / d

/-! ### Index lists, in the order in which the part takes them (R24, R32) -/

def channelNumbers : List (Fin 6) := [0, 1, 2, 3, 4, 5]
def lineNumbers : List (Fin 12) := [0, 1, 2, 3, 4, 5, 6, 7, 8, 9, 10, 11]
def pairNumbers : List (Fin 6) := [0, 1, 2, 3, 4, 5]
def bankNumbers : List (Fin 3) := [0, 1, 2]
def dinNumbers : List (Fin 8) := [0, 1, 2, 3, 4, 5, 6, 7]
def countPinNumbers : List (Fin 12) := [0, 1, 2, 3, 4, 5, 6, 7, 8, 9, 10, 11]
def markNumbers : List Nat := [0, 1, 2, 3, 4, 5, 6, 7]

/-- The pair of a line, its even and its odd line, its bank (R138). -/
def pairOfLine (n : Fin 12) : Fin 6 := ⟨n.val / 2, by omega⟩
def evenLine (j : Fin 6) : Fin 12 := ⟨2 * j.val, by omega⟩
def oddLine (j : Fin 6) : Fin 12 := ⟨2 * j.val + 1, by omega⟩
def bankOfLine (n : Fin 12) : Fin 3 := ⟨n.val / 4, by omega⟩

/-- The count-input pins CAk and CBk. -/
def pinCA (k : Fin 6) : Fin 12 := ⟨2 * k.val, by omega⟩
def pinCB (k : Fin 6) : Fin 12 := ⟨2 * k.val + 1, by omega⟩
def channelOfPin (p : Fin 12) : Fin 6 := ⟨p.val / 2, by omega⟩

/-- A channel with an even number, and the partner 2k+1 or 2k of a channel (R69). -/
def isEven (k : Fin 6) : Bool := k.val % 2 == 0
def partner (k : Fin 6) : Fin 6 := if k.val % 2 = 0 then ⟨(k.val + 1) % 6, by omega⟩ else ⟨k.val - 1, by omega⟩

/-! ### Capacities (00_scope, Counts and capacities) -/

def ciqSlots : Nat := 8
def rnqSlots : Nat := 32
def noticeSlots : Nat := 24
def ledgerSlots : Nat := 16
def fifoSlots : Nat := 4
def ringSlots : Nat := 4
def markSlots : Nat := 8

/-! ### Durations, in half microseconds (log entry 3) -/

/-- R39: 0, 0.5, 1, 2 µs. -/
def countFilterTime (code : BitVec 2) : Nat :=
  if code = 0#2 then 0 else if code = 1#2 then 1 else if code = 2#2 then 2 else 4

/-- R48: 0, 0.1, 1, 10 ms. -/
def dinFilterTime (code : BitVec 2) : Nat :=
  if code = 0#2 then 0 else if code = 1#2 then 200 else if code = 2#2 then 2000 else 20000

/-- R161: 2 µs. -/
def safetyFilterTime : Nat := 4

def microsecond : Nat := 2
def millisecond : Nat := 2000

/-- The unit of the stall and watch windows, 10 ms (R97, R170). -/
def tenMilliseconds : Nat := 20000

/-- R132. -/
def windowTime : WindowLength → Nat
  | .w10 => 10 * millisecond
  | .w100 => 100 * millisecond
  | .w1000 => 1000 * millisecond

/-! ### The head word (R19) -/

def headKind (w : Word) : Byte := field w 24 8
def headTag (w : Word) : Byte := field w 16 8
def headChannel (w : Word) : BitVec 4 := field w 12 4
def headLength (w : Word) : BitVec 3 := field w 9 3
def headModifier (w : Word) : BitVec 9 := field w 0 9

def makeHead (kind tag : Byte) (channel : BitVec 4) (length : Nat) (modifier : BitVec 9) : Word :=
  place 24 kind ||| place 16 tag ||| place 12 channel ||| place 9 (BitVec.ofNat 3 length) ||| place 0 modifier

/-- Channel 15 of a head word: not tied to one channel. -/
def deviceChannel : BitVec 4 := 15#4

def channelField (k : Fin 6) : BitVec 4 := BitVec.ofNat 4 k.val

/-- The notice kinds run from 0xC0 to 0xC9 (R20). -/
def isNotice (m : Message) : Bool := 0xC0 ≤ (headKind m.head).toNat && (headKind m.head).toNat ≤ 0xC9

/-- The i-th body word, 0 beyond the last. -/
def Message.word (m : Message) (i : Nat) : Word := m.body.getD i 0#32

/-! ### Result codes (R21) -/

inductive ResultCode where
  | done | unknownKind | badLength | badChannel | badValue | wrongState
  | sealed | lineTaken | causePresent | nothingPending | partly
deriving DecidableEq, Repr

def ResultCode.code : ResultCode → BitVec 9
  | .done => 0#9
  | .unknownKind => 1#9
  | .badLength => 2#9
  | .badChannel => 3#9
  | .badValue => 4#9
  | .wrongState => 5#9
  | .sealed => 6#9
  | .lineTaken => 7#9
  | .causePresent => 8#9
  | .nothingPending => 9#9
  | .partly => 10#9

/-- What a command answers: its result and its reply body (R22). -/
structure Reply where
  code : ResultCode
  body : List Word
deriving DecidableEq, Repr

/-- DONE with a body. -/
def Reply.done (body : List Word) : Reply := ⟨.done, body⟩

/-- A refusal with an empty body. -/
def Reply.refuse (code : ResultCode) : Reply := ⟨code, []⟩

/-- The reply message: kind 0x80, tag and channel as received, the result in bits 7..0 of the modifier
and 0 in bit 8 (R22). -/
def replyMessage (command : Message) (r : Reply) : Message :=
  ⟨makeHead 0x80#8 (headTag command.head) (headChannel command.head) r.body.length r.code.code, r.body⟩

/-! ### Codes of states and settings -/

/-- R80. -/
def ChannelState.code : ChannelState → BitVec 4
  | .off => 0#4
  | .idle => 1#4
  | .armed => 2#4
  | .running => 3#4
  | .quenched => 4#4
  | .complete => 5#4
  | .faulted => 6#4
  | .lent => 7#4

/-- R159. -/
def Permit.code : Permit → BitVec 2
  | .withheld => 0#2
  | .permitted => 1#2
  | .tripped => 2#2

/-- R157: 0..5 for CH0..CH5, 8 for HOST, 15 for NONE. -/
def Owner.code : Owner → BitVec 4
  | .nobody => 15#4
  | .host => 8#4
  | .channel k => channelField k

/-- R154: 0 OPEN, 1 LOW, 2 HIGH. -/
def safeCode : PinLevel → BitVec 2
  | .opened => 0#2
  | .low => 1#2
  | .high => 2#2

def decodeSafe (code : BitVec 2) : Option PinLevel :=
  if code = 0#2 then some .opened else if code = 1#2 then some .low
  else if code = 2#2 then some .high else none

/-- R157: 0 LOW, 1 HIGH, 2 OPEN. -/
def pinLevelCode : PinLevel → BitVec 2
  | .low => 0#2
  | .high => 1#2
  | .opened => 2#2

/-- R135, R136: 0 W10, 1 W100, 2 W1000. -/
def WindowLength.code : WindowLength → BitVec 2
  | .w10 => 0#2
  | .w100 => 1#2
  | .w1000 => 2#2

def decodeWindow (code : BitVec 2) : Option WindowLength :=
  if code = 0#2 then some .w10 else if code = 1#2 then some .w100
  else if code = 2#2 then some .w1000 else none

/-- R35: 1 POWER, 2 PIN. -/
def ResetCause.code : ResetCause → Byte
  | .power => 1#8
  | .pin => 2#8

/-- R178. -/
def LedgerSource.code : LedgerSource → BitVec 4
  | .channel k => channelField k
  | .bank b => BitVec.ofNat 4 (8 + b.val)
  | .tripIn => 12#4
  | .host => 13#4
  | .supply => 14#4
  | .soft => 15#4

/-- R178. -/
def LedgerKind.code : LedgerKind → BitVec 3
  | .stall => 1#3
  | .overflow => 2#3
  | .overload => 3#3
  | .supplyLoss => 4#3
  | .tripInput => 5#3
  | .softTrip => 6#3
  | .hostLost => 7#3

/-- R174. -/
def TripSource.code : TripSource → BitVec 3
  | .tripIn => 1#3
  | .overload _ => 2#3
  | .supply => 3#3
  | .hostLost => 4#3
  | .soft => 5#3
  | .channelFault _ => 6#3

/-- The bank or channel of a withdrawal, 0 for the other sources (R174). -/
def TripSource.place : TripSource → BitVec 3
  | .overload b => BitVec.ofNat 3 b.val
  | .channelFault k => BitVec.ofNat 3 k.val
  | _ => 0#3

/-- The record word of R178. -/
def LedgerRecord.word (r : LedgerRecord) : Word :=
  place 0 r.ordinal ||| place 16 r.source.code ||| place 20 r.kind.code ||| placeFlag 23 r.active ||| place 24 r.repeats

/-! ### STAGE_MODE (R62) -/

def Mode.code : Mode → BitVec 3
  | .off => 0#3
  | .tally => 1#3
  | .span => 2#3
  | .loop => 3#3
  | .pace => 4#3

def decodeMode (code : BitVec 3) : Option Mode :=
  if code = 0#3 then some .off else if code = 1#3 then some .tally
  else if code = 2#3 then some .span else if code = 3#3 then some .loop
  else if code = 4#3 then some .pace else none

def DecodeKind.code : DecodeKind → BitVec 3
  | .step => 0#3
  | .stepDir => 1#3
  | .twoLine => 2#3
  | .quad1 => 3#3
  | .quad2 => 4#3
  | .quad4 => 5#3

def decodeDecodeKind (code : BitVec 3) : Option DecodeKind :=
  if code = 0#3 then some .step else if code = 1#3 then some .stepDir
  else if code = 2#3 then some .twoLine else if code = 3#3 then some .quad1
  else if code = 4#3 then some .quad2 else if code = 5#3 then some .quad4 else none

/-- The STAGE_MODE body word of a set. -/
def modeWord (c : ChannelConfig) : Word :=
  place 0 c.mode.code ||| placeFlag 3 (c.direction == .down) ||| place 4 c.decode.code
    ||| placeFlag 7 (c.edge == .fall) ||| placeFlag 8 (c.reference == .toGo) ||| placeFlag 9 (c.order == .all)

/-- The set with the six structural fields of a STAGE_MODE body word, none when a field is out of range
or a bit of 31..10 is set. -/
def withModeWord (w : Word) (c : ChannelConfig) : Option ChannelConfig :=
  match decodeMode (field w 0 3), decodeDecodeKind (field w 4 3) with
  | some mode, some decode =>
    if field w 10 22 = 0#22 then
      some { c with
        mode := mode
        direction := if bit w 3 then .down else .up
        decode := decode
        edge := if bit w 7 then .fall else .rise
        reference := if bit w 8 then .toGo else .absolute
        order := if bit w 9 then .all else .sequential }
    else none
  | _, _ => none

/-! ### STAGE_TARGETS (R63) -/

def targetsWords (c : ChannelConfig) : List Word :=
  [place 0 c.final,
   place 0 c.repeats ||| place 16 c.window.code ||| placeFlag 18 (c.endPolicy == .hold)]

def withTargetsWords (w0 w1 : Word) (c : ChannelConfig) : Option ChannelConfig :=
  match decodeWindow (field w1 16 2) with
  | some window =>
    if bit w0 31 = false && field w0 0 31 != 0#31 && field w1 19 13 == 0#13 then
      some { c with
        final := field w0 0 31
        repeats := field w1 0 16
        window := window
        endPolicy := if bit w1 18 then .hold else .release }
    else none
  | none => none

/-! ### Term descriptors (R51) and STAGE_TERMS (R64) -/

/-- Reference i of a descriptor. -/
def termRef (d : BitVec 16) (i : Nat) : DinRef :=
  ⟨(d.extractLsb' (3 + 4 * i) 3).toFin, d.getLsbD (6 + 4 * i)⟩

/-- A well-formed descriptor as a term, none for one that is not well formed: bit 15 and every bit of an
unused reference are 0, and with count 0 the operator bit is 0. -/
def decodeTerm (d : BitVec 16) : Option Term :=
  let count := (d.extractLsb' 0 2).toNat
  if d >>> (3 + 4 * count) = 0#16 ∧ (count ≠ 0 ∨ d.getLsbD 2 = false) then
    some ⟨if d.getLsbD 2 then .disj else .conj, [termRef d 0, termRef d 1, termRef d 2].take count⟩
  else none

def refBits (i : Nat) (r : DinRef) : BitVec 16 :=
  (BitVec.ofNat 16 r.din.val <<< (3 + 4 * i)) ||| ((BitVec.ofBool r.inverted).setWidth 16 <<< (6 + 4 * i))

def refsBits (i : Nat) : List DinRef → BitVec 16
  | [] => 0#16
  | r :: rest => refBits i r ||| refsBits (i + 1) rest

/-- The descriptor of a term, with its operator bit as written. -/
def encodeTerm (t : Term) : BitVec 16 :=
  BitVec.ofNat 16 t.refs.length ||| ((BitVec.ofBool (t.operator == .disj)).setWidth 16 <<< 2) ||| refsBits 0 t.refs

def termsWords (c : ChannelConfig) : List Word :=
  [place 0 (encodeTerm c.startTerm) ||| place 16 (encodeTerm c.restartTerm),
   place 0 (encodeTerm c.quenchTerm) ||| place 16 (encodeTerm c.resyncTerm)]

def withTermsWords (w0 w1 : Word) (c : ChannelConfig) : Option ChannelConfig :=
  match decodeTerm (field w0 0 16), decodeTerm (field w0 16 16), decodeTerm (field w1 0 16), decodeTerm (field w1 16 16) with
  | some start, some restart, some quench, some resync =>
    some { c with startTerm := start, restartTerm := restart, quenchTerm := quench, resyncTerm := resync }
  | _, _, _, _ => none

/-! ### STAGE_GUARD (R65) -/

def gateBits : Option DinRef → Word
  | none => 0#32
  | some g => placeFlag 0 true ||| placeNat 1 g.din.val ||| placeFlag 4 g.inverted

def CaptureEdge.code : CaptureEdge → BitVec 2
  | .rise => 1#2
  | .fall => 2#2
  | .both => 3#2

def captureBits : Option CaptureSource → Word
  | none => 0#32
  | some c => place 5 c.edge.code ||| placeNat 7 c.din.val

def guardWords (c : ChannelConfig) : List Word :=
  [gateBits c.gate ||| captureBits c.captureSource ||| place 10 c.countFilter,
   place 0 c.stall ||| placeFlag 8 c.faultTrips ||| placeFlag 9 c.notifyCycles
     ||| placeFlag 10 c.notifyRate ||| placeFlag 11 c.notifyState]

def decodeGate (w : Word) : Option DinRef :=
  if bit w 0 then some ⟨(field w 1 3).toFin, bit w 4⟩ else none

def decodeCapture (w : Word) : Option CaptureSource :=
  if field w 5 2 = 0#2 then none
  else some ⟨(field w 7 3).toFin,
    if field w 5 2 = 1#2 then .rise else if field w 5 2 = 2#2 then .fall else .both⟩

def withGuardWords (w0 w1 : Word) (c : ChannelConfig) : Option ChannelConfig :=
  if field w0 12 20 = 0#20 ∧ field w1 12 20 = 0#20 ∧ (bit w0 0 = true ∨ field w0 1 4 = 0#4)
      ∧ (field w0 5 2 ≠ 0#2 ∨ field w0 7 3 = 0#3) then
    some { c with
      gate := decodeGate w0
      captureSource := decodeCapture w0
      countFilter := field w0 10 2
      stall := field w1 0 8
      faultTrips := bit w1 8
      notifyCycles := bit w1 9
      notifyRate := bit w1 10
      notifyState := bit w1 11 }
  else none

/-! ### STAGE_MARK (R108) -/

def MarkAction.code : MarkAction → BitVec 3
  | .nothing => 0#3
  | .set => 1#3
  | .clear => 2#3
  | .toggle => 3#3
  | .pulse => 4#3

def decodeAction (code : BitVec 3) : Option MarkAction :=
  if code = 0#3 then some .nothing else if code = 1#3 then some .set
  else if code = 2#3 then some .clear else if code = 3#3 then some .toggle
  else if code = 4#3 then some .pulse else none

/-- A line number 0..11; none for any other. -/
def lineNumber (n : Nat) : Option (Fin 12) := if h : n < 12 then some ⟨n, h⟩ else none

/-- The line field of a mark: 0..11 a line, 15 NONE, any other out of range. -/
def decodeMarkLine (code : BitVec 4) : Option (Option (Fin 12)) :=
  if code = 15#4 then some none
  else match lineNumber code.toNat with
    | some n => some (some n)
    | none => none

def markLineCode : Option (Fin 12) → BitVec 4
  | none => 15#4
  | some n => BitVec.ofNat 4 n.val

def Mark.words (m : Mark) : List Word :=
  [m.target,
   place 0 (markLineCode m.line) ||| place 4 m.action.code ||| placeFlag 7 m.notify ||| placeFlag 8 m.capture
     ||| placeFlag 9 (m.crossing == .falling) ||| place 16 m.width]

/-- The record of a STAGE_MARK body, none for one that R108 refuses: a line of 12, 13 or 14, an action of
5, 6 or 7, a bit of 15..10, or action NONE with a line or a line NONE with an action. -/
def decodeMark (w0 w1 : Word) : Option Mark :=
  match decodeMarkLine (field w1 0 4), decodeAction (field w1 4 3) with
  | some line, some action =>
    if field w1 10 6 = 0#6 ∧ ((action == .nothing) = line.isNone) then
      some ⟨w0, line, action, field w1 16 16, bit w1 7, bit w1 8, if bit w1 9 then .falling else .rising⟩
    else none
  | _, _ => none

/-! ### SET_TRIP (R172) -/

def autoCode : Option (Fin 6) → BitVec 3
  | none => 7#3
  | some k => BitVec.ofNat 3 k.val

def tripWord (c : TripConfig) : Word :=
  placeFlag 0 c.tripInEnable ||| placeFlag 1 c.tripInActiveHigh ||| placeFlag 2 c.overloadEnable
    ||| placeFlag 3 c.supplyEnable ||| placeFlag 4 (c.policy == .coast) ||| placeFlag 5 (c.hostLoss == .trip)
    ||| place 8 (autoCode c.autoChannel) ||| place 16 c.watch

/-- auto_channel: 0..5 a channel, 7 NONE, 6 out of range. -/
def decodeAuto (code : BitVec 3) : Option (Option (Fin 6)) :=
  if code = 7#3 then some none
  else if h : code.toNat < 6 then some (some ⟨code.toNat, h⟩) else none

/-- The configuration of a SET_TRIP body, none for one that check 3 of R172 refuses. -/
def decodeTrip (w0 w1 : Word) : Option TripConfig :=
  match decodeAuto (field w0 8 3) with
  | some auto =>
    if field w0 6 2 = 0#2 ∧ field w0 11 5 = 0#5 ∧ field w0 24 8 = 0#8 ∧ w1 = ~~~w0 then
      some ⟨bit w0 0, bit w0 1, bit w0 2, bit w0 3, if bit w0 4 then .coast else .freeze,
        if bit w0 5 then .trip else .hold, auto, field w0 16 8⟩
    else none
  | none => none

/-! ### Owners in BIND_LINE (R152) -/

/-- The owner code of BIND_LINE: 0..5 a channel, 8 HOST, any other out of range. -/
def decodeOwner (code : BitVec 4) : Option Owner :=
  if code = 8#4 then some .host
  else if h : code.toNat < 6 then some (.channel ⟨code.toNat, h⟩) else none

end Sys2Proof.Machine
end

