-- ==== Sys2Proof/Machine/Flags.lean ====
section
/-! DEFINITION. The conditions and flags that the part computes from its state: progress and positions,
terms and gates, trip causes, freezes, the level of every output pin, the link status byte, STATUS and
the other register values, and ATTN_N. -/

namespace Sys2Proof.Machine

/-! ### Reading the state -/

def State.chan (s : State) (k : Fin 6) : Channel := s.channels[k]
def State.line (s : State) (n : Fin 12) : Line := s.matrix.lines[n]
def State.pair (s : State) (j : Fin 6) : Pair := s.matrix.pairs[j]
def State.countPin (s : State) (p : Fin 12) : FilteredInput := s.inputs.count[p]
def State.dinPin (s : State) (n : Fin 8) : DiscreteInput := s.inputs.din[n]

/-! ### Counter value and progress (R78), positions (R111) -/

/-- TALLY, SPAN and LOOP. -/
def Mode.counting : Mode → Bool
  | .tally | .span | .loop => true
  | .off | .pace => false

/-- F, the active final, as a number. -/
def ChannelConfig.finalValue (c : ChannelConfig) : Int := (c.final.toNat : Int)

/-- The load value: 0 for UP and F for DOWN in the counting modes, 0 in PACE. -/
def ChannelConfig.loadValue (c : ChannelConfig) : Word :=
  if c.mode.counting && (c.direction == .down) then c.final.setWidth 32 else 0#32

/-- Progress of a counter value against a set: V − load value under UP, load value − V under DOWN, and 0
in PACE and OFF. -/
def ChannelConfig.progress (c : ChannelConfig) (v : Word) : Int :=
  if c.mode.counting then
    match c.direction with
    | .up => v.toInt
    | .down => c.finalValue - v.toInt
  else 0

/-- The position of a mark, an exact difference (R111). -/
def ChannelConfig.position (c : ChannelConfig) (m : Mark) : Int :=
  match c.reference, c.direction with
  | .absolute, .up => m.target.toInt
  | _, _ => c.finalValue - m.target.toInt

/-- The marks reported as armed, one bit per mark (R101, R110, R115). -/
def Arming.bits : Arming → Byte
  | .flags f => f
  | .head none => 0#8
  | .head (some i) => 1#8 <<< i

/-- Nothing armed, for a list under the given order (R116). -/
def Arming.disarmed : MarkOrder → Arming
  | .all => .flags 0#8
  | .sequential => .head none

/-- Every mark armed, or the head at mark 0 (R116). An empty list has nothing to arm. -/
def ChannelConfig.armAll (c : ChannelConfig) : Arming :=
  match c.order with
  | .all => .flags (BitVec.ofNat 8 (2 ^ c.marks.length - 1))
  | .sequential => .head (if c.marks.isEmpty then none else some 0)

/-- The flags of the marks whose position is greater than p, from index i on. -/
def ChannelConfig.aheadFlags (c : ChannelConfig) (p : Int) (i : Nat) : List Mark → Byte
  | [] => 0#8
  | m :: rest => (if c.position m > p then 1#8 <<< i else 0#8) ||| c.aheadFlags p (i + 1) rest

/-- The first mark from index i on whose position is greater than p. -/
def ChannelConfig.aheadHead (c : ChannelConfig) (p : Int) (i : Nat) : List Mark → Option Nat
  | [] => none
  | m :: rest => if c.position m > p then some i else c.aheadHead p (i + 1) rest

/-- The arming state rebuilt from the present progress (R117). -/
def ChannelConfig.armAhead (c : ChannelConfig) (p : Int) : Arming :=
  match c.order with
  | .all => .flags (c.aheadFlags p 0 c.marks)
  | .sequential => .head (c.aheadHead p 0 c.marks)

/-- ARMED, RUNNING or QUENCHED. -/
def ChannelState.live : ChannelState → Bool
  | .armed | .running | .quenched => true
  | .off | .idle | .complete | .faulted | .lent => false

/-- RUNNING or QUENCHED. -/
def ChannelState.counts : ChannelState → Bool
  | .running | .quenched => true
  | .off | .idle | .armed | .complete | .faulted | .lent => false

/-! ### Discrete inputs, terms and gates (R48, R50, R54) -/

/-- The DIN level after the device-wide invert. -/
def FrontEnd.dinLevel (f : FrontEnd) (n : Fin 8) : Bool := f.din[n].input.filtered != f.din[n].invert

def FrontEnd.refLevel (f : FrontEnd) (r : DinRef) : Bool := f.dinLevel r.din != r.inverted

/-- A term that is NONE is FALSE at all times. -/
def FrontEnd.termValue (f : FrontEnd) (t : Term) : Bool :=
  match t.refs, t.operator with
  | [], _ => false
  | refs, .conj => refs.all f.refLevel
  | refs, .disj => refs.any f.refLevel

/-- A gate of NONE is always open. -/
def FrontEnd.gateLevel (f : FrontEnd) : Option DinRef → Bool
  | none => true
  | some g => f.refLevel g

/-- Whether a capture-source event occurs between two front ends (R54). -/
def captureEvent (before after : FrontEnd) : Option CaptureSource → Bool
  | none => false
  | some c =>
    match c.edge with
    | .rise => !before.dinLevel c.din && after.dinLevel c.din
    | .fall => before.dinLevel c.din && !after.dinLevel c.din
    | .both => before.dinLevel c.din != after.dinLevel c.din

/-! ### Trip causes (R161, R162) -/

/-- OVLb is asserted. An assertion still owed to the first instant has not been taken (log entry 12). -/
def SafetyInput.assertedHigh (i : SafetyInput) : Bool := i.input.filtered && !i.owed

/-- SUPPLY_OK is asserted, that is, the field supply is lost (R151). -/
def State.supplyLost (s : State) : Bool := !s.safety.supplyOk.input.filtered && !s.safety.supplyOk.owed

def State.overloadPresent (s : State) (b : Fin 3) : Bool := s.safety.ovl[b].assertedHigh

/-- TRIP_IN's filtered level is at its active level under a polarity. -/
def State.tripInPresentUnder (s : State) (activeHigh : Bool) : Bool :=
  (s.safety.tripIn.input.filtered == activeHigh) && !s.safety.tripIn.owed

def State.tripInPresent (s : State) : Bool := s.tripInPresentUnder s.trip.config.tripInActiveHigh

/-- The twelve causes in the order of the cause set: TRIP_IN, OVL0..OVL2, SUPPLY, HOST_LOST, CH0..CH5,
each true when it is present under the polarity of a configuration and, with enabledOnly, when its source
is enabled as well. -/
def State.causesUnder (s : State) (c : TripConfig) (enabledOnly : Bool) : List Bool :=
  [s.tripInPresentUnder c.tripInActiveHigh && (!enabledOnly || c.tripInEnable)]
    ++ bankNumbers.map (fun b => s.overloadPresent b && (!enabledOnly || c.overloadEnable))
    ++ [s.supplyLost && (!enabledOnly || c.supplyEnable), s.trip.hostLost && (!enabledOnly || (c.hostLoss == .trip))]
    ++ channelNumbers.map (fun k => ((s.chan k).state == .faulted) && (!enabledOnly || s.trip.handed[k]))

/-- The cause set of the enabled causes present, under a configuration. -/
def State.enabledCausesUnder (s : State) (c : TripConfig) : Word := placeFlags 0 (s.causesUnder c true)

/-- The cause set of the enabled causes present. -/
def State.enabledCauses (s : State) : Word := s.enabledCausesUnder s.trip.config

/-- The cause set of every cause present, enabled or not. -/
def State.presentCauses (s : State) : Word := placeFlags 0 (s.causesUnder s.trip.config false)

/-- A channel is frozen while the permit is TRIPPED under FREEZE and it is ARMED, RUNNING or QUENCHED
(R166). -/
def State.frozen (s : State) (k : Fin 6) : Bool :=
  (s.trip.permit == .tripped) && (s.trip.config.policy == .freeze) && (s.chan k).state.live

/-! ### Lines, pairs and pins (R138, R143, R146, R147) -/

inductive Pairing where
  | single | pairEven | pairOdd
deriving DecidableEq, Repr

/-- Line 2j is PAIR_EVEN and line 2j+1 PAIR_ODD exactly when pair j is paired. -/
def State.pairing (s : State) (n : Fin 12) : Pairing :=
  if (s.pair (pairOfLine n)).paired then (if n.val % 2 = 0 then .pairEven else .pairOdd) else .single

inductive PairTarget where
  | safe | even | odd
deriving DecidableEq, Repr

/-- The target of a pair from the permit and its reference, the logical state of its even line. -/
def State.target (s : State) (j : Fin 6) : PairTarget :=
  match s.trip.permit with
  | .permitted => if (s.line (evenLine j)).active then .even else .odd
  | .withheld | .tripped => .safe

def Line.activeLevel (l : Line) : PinLevel := if l.inverted then .low else .high
def Line.inactiveLevel (l : Line) : PinLevel := if l.inverted then .high else .low
def Line.levelFor (l : Line) (active : Bool) : PinLevel := if active then l.activeLevel else l.inactiveLevel

/-- The resolved level of a pin, by the tables of R146 for a single line and R147 for a line of a pair. -/
def State.resolvedPin (s : State) (n : Fin 12) : PinLevel :=
  let l := s.line n
  let j := pairOfLine n
  if s.supplyLost then .opened
  else if s.matrix.shut[bankOfLine n] then .opened
  else match s.pairing n with
    | .single =>
      if s.trip.permit ≠ .permitted then l.safe
      else if l.owner = .nobody then .opened
      else l.levelFor l.active
    | .pairEven | .pairOdd =>
      if (s.pair j).gapLeft.isSome then l.inactiveLevel
      else match s.target j with
        | .safe => l.safe
        | .even => if l.owner = .nobody then .opened else l.levelFor (s.pairing n == .pairEven)
        | .odd => if l.owner = .nobody then .opened else l.levelFor (s.pairing n == .pairOdd)

/-- The level at a pin. While the part is held in reset or initialises every pin is OPEN (R158, R187). Within
an instant the pin keeps the level it had before, and between instants it has its resolved level (R148). -/
def State.pinLevel (s : State) (n : Fin 12) : PinLevel :=
  if !s.power.ready then .opened
  else match s.instant with
    | some held => held[n]
    | none => s.resolvedPin n

/-! ### The Reply/Notice Queue (R26, R27) -/

def Outbox.noticeCount (o : Outbox) : Nat := (o.rnq.filter isNotice).length

/-- An offered notice is admitted: fewer than 24 notices, and a slot that is neither taken nor reserved. -/
def Outbox.admits (o : Outbox) : Bool :=
  decide (o.noticeCount < noticeSlots) && decide (o.rnq.length + (if o.reserved then 1 else 0) < rnqSlots)

def Outbox.lostAny (o : Outbox) : Bool :=
  o.lostMark != 0#8 || o.lostRun != 0#8 || o.lostData != 0#8 || o.lostSafety != 0#8

/-- The four lost-notice counters in one word (R28, R36). -/
def Outbox.lostWord (o : Outbox) : Word :=
  place 0 o.lostMark ||| place 8 o.lostRun ||| place 16 o.lostData ||| place 24 o.lostSafety

/-! ### The Host Port (R2, R7, R17, R192, R194) -/

def HostPort.reservation (p : HostPort) : Nat := if p.assembly.isSome then 1 else 0

/-- The body words an assembly still expects (R7). -/
def HostPort.expected (p : HostPort) : Nat :=
  match p.assembly with
  | some a => (headLength a.head).toNat - a.body.length
  | none => 0

def State.permitNotGranted (s : State) : Bool := s.trip.permit != .permitted
def State.rnqNotEmpty (s : State) : Bool := !s.out.rnq.isEmpty
def State.ciqFull (s : State) : Bool := decide (ciqSlots ≤ s.port.ciq.length)
def State.ledgerNotEmpty (s : State) : Bool := !s.ledger.records.isEmpty

/-- Any sticky flag of STATUS (R193). -/
def State.anySticky (s : State) : Bool := s.port.framingSticky || s.port.noticeLostSticky || s.ledger.lost

/-- ATTN_N is asserted while an enabled condition is true, and released while ready is 0 (R17). -/
def State.attention (s : State) : Bool :=
  s.power.ready &&
    ((s.port.attnMask.getLsbD 0 && s.rnqNotEmpty) || (s.port.attnMask.getLsbD 1 && s.permitNotGranted)
      || (s.port.attnMask.getLsbD 2 && s.ledgerNotEmpty) || (s.port.attnMask.getLsbD 3 && s.anySticky))

/-- The link status byte (R2, R192), 0x00 while ready is 0. -/
def State.linkStatus (s : State) : Byte :=
  if s.power.ready then
    (placeFlags 0 [s.rnqNotEmpty, s.ciqFull, s.port.refusedLast, s.permitNotGranted, s.ledgerNotEmpty, true,
      s.port.framingSticky, s.attention]).setWidth 8
  else 0#8

/-- STATUS (R192). -/
def State.statusWord (s : State) : Word :=
  placeFlags 0 [s.rnqNotEmpty, s.ciqFull, s.port.refusedLast, s.permitNotGranted, s.ledgerNotEmpty, s.power.ready,
    s.attention] ||| place 8 s.trip.permit.code
    ||| placeFlags 16 [s.port.framingSticky, s.port.noticeLostSticky, s.ledger.lost]

/-- IDENT (R194): part code 0x0612, revision 0x01. -/
def identWord : Word := 0x00010612#32

/-- IN_SPACE (R7, R194). -/
def HostPort.inSpaceWord (p : HostPort) : Word :=
  placeNat 0 (ciqSlots - p.ciq.length - p.reservation) ||| placeNat 8 p.expected

/-- OUT_WAITING (R11, R194). -/
def State.outWaitingWord (s : State) : Word := placeNat 0 s.out.rnq.length ||| placeNat 8 s.port.popBuffer.length

/-- LINK_COUNTS (R14, R194). -/
def HostPort.linkCountsWord (p : HostPort) : Word :=
  place 0 p.framingCount ||| place 8 p.refusedCount ||| place 16 p.skippedCount

/-- The value of an ordinary register (R191); 0 for an index that names none, and for LINK_CTRL. -/
def State.registerValue (s : State) (index : BitVec 7) : Word :=
  if index = indexIdent then identWord
  else if index = indexStatus then s.statusWord
  else if index = indexInSpace then s.port.inSpaceWord
  else if index = indexOutWaiting then s.outWaitingWord
  else if index = indexLinkCounts then s.port.linkCountsWord
  else if index = indexAttnMask then place 0 s.port.attnMask
  else 0#32

/-- What a POP_HEAD slot presents and how it will end (R12). -/
def State.decidePopHead (s : State) : Slot :=
  match s.out.rnq with
  | m :: _ => ⟨m.head, .hands⟩
  | [] => ⟨0#32, .refuses⟩

/-- What a POP_BODY slot presents and how it will end (R13). -/
def State.decidePopBody (s : State) : Slot :=
  match s.port.popBuffer with
  | w :: _ => ⟨w, .hands⟩
  | [] => ⟨0#32, .refuses⟩

/-- What read slot n of a register, the first being slot 0, carries when it starts now: a doorway acts in every
slot, an ordinary register gives its value in the first slot and 0 in the others (R4). -/
def State.readWord (s : State) (index : BitVec 7) (n : Nat) : Word :=
  if index = indexPopHead then s.decidePopHead.presented
  else if index = indexPopBody then s.decidePopBody.presented
  else if n = 0 then s.registerValue index
  else 0#32

/-- What word slot n of a transaction carries on MISO when it starts now: 0 in a write (R1) and in a transaction
that began while ready was 0 (R6). -/
def State.slotWord (s : State) (t : Transaction) (n : Nat) : Word :=
  match t.command with
  | some c => if t.active && isRead c then s.readWord (addressed c) n else 0#32
  | none => 0#32

/-- The bits that MISO carried, in the order of the wire; none at high impedance (R1). -/
def Miso.bits : Miso → List Bool
  | .highImpedance => []
  | .byte b => byteBits b
  | .word w => wordBits w

/-- The Command Engine may take a message: one is in the CIQ and the RNQ has a free slot (R23). -/
def State.engineMayTake (s : State) : Bool := !s.port.ciq.isEmpty && decide (s.out.rnq.length < rnqSlots)

/-- The part is initialising: neither held in reset nor ready (R6, R187). -/
def State.initialising (s : State) : Bool := s.power.vddGood && !s.power.rstnLow && !s.power.ready

end Sys2Proof.Machine
end

