-- ==== Sys2Proof/Machine/Ops.lean ====
section
/-! DEFINITION. The named operations that every family of commands shares: field updates, the Event
Ordinal and notices, line actions and gaps, the permit, the ledger, the host watch and the input
filters. -/

namespace Sys2Proof.Machine

/-! ### Field updates -/

def State.withPending (s : State) (q : List Instr) : State := { s with pending := q }
def State.withPower (s : State) (x : Power) : State := { s with power := x }
def State.withPort (s : State) (x : HostPort) : State := { s with port := x }
def State.withOut (s : State) (x : Outbox) : State := { s with out := x }
def State.withInputs (s : State) (x : FrontEnd) : State := { s with inputs := x }
def State.withSafety (s : State) (x : SafetyInputs) : State := { s with safety := x }
def State.withChannels (s : State) (x : Vector Channel 6) : State := { s with channels := x }
def State.withMatrix (s : State) (x : LineMatrix) : State := { s with matrix := x }
def State.withTrip (s : State) (x : TripUnit) : State := { s with trip := x }
def State.withLedger (s : State) (x : Ledger) : State := { s with ledger := x }
def State.withSeal (s : State) (x : BitVec 2) : State := { s with sealLevel := x }
def State.withInstant (s : State) (x : Option (Vector PinLevel 12)) : State := { s with instant := x }

def State.setChan (s : State) (k : Fin 6) (c : Channel) : State := s.withChannels (s.channels.set k c)
def State.modChan (s : State) (k : Fin 6) (f : Channel → Channel) : State := s.setChan k (f (s.chan k))

def LineMatrix.setLine (m : LineMatrix) (n : Fin 12) (l : Line) : LineMatrix := { m with lines := m.lines.set n l }
def LineMatrix.setPair (m : LineMatrix) (j : Fin 6) (p : Pair) : LineMatrix := { m with pairs := m.pairs.set j p }

def State.setLine (s : State) (n : Fin 12) (l : Line) : State := s.withMatrix (s.matrix.setLine n l)
def State.setPair (s : State) (j : Fin 6) (p : Pair) : State := s.withMatrix (s.matrix.setPair j p)
def State.setShut (s : State) (b : Fin 3) (x : Bool) : State :=
  s.withMatrix { s.matrix with shut := s.matrix.shut.set b x }

def State.setCountPin (s : State) (p : Fin 12) (x : FilteredInput) : State :=
  s.withInputs { s.inputs with count := s.inputs.count.set p x }
def State.setDinPin (s : State) (n : Fin 8) (x : DiscreteInput) : State :=
  s.withInputs { s.inputs with din := s.inputs.din.set n x }

/-! ### The end of an instant (R39, R148) -/

/-- Between instants no candidate is held back. -/
def FrontEnd.endInstant (f : FrontEnd) : FrontEnd := { f with restarted := 0#12 }

/-- The instant in progress, if there is one, ends: every pin takes its resolved level (R148). -/
def State.endInstant (s : State) : State := (s.withInputs s.inputs.endInstant).withInstant none

/-! ### The Event Ordinal and notices (R27 to R31) -/

/-- The Event Ordinal has been taken by an event; it wraps (R31). -/
def State.nextOrdinal (s : State) : State := s.withOut { s.out with ordinal := s.out.ordinal + 1#16 }

/-- The notice kinds of R30. -/
inductive NoticeKind where
  | markHit | runEnd | cycleEnd | capture | rateSample | fault | trip | permit | loss | state
deriving DecidableEq, Repr

def NoticeKind.code : NoticeKind → Byte
  | .markHit => 0xC0#8
  | .runEnd => 0xC1#8
  | .cycleEnd => 0xC2#8
  | .capture => 0xC3#8
  | .rateSample => 0xC4#8
  | .fault => 0xC5#8
  | .trip => 0xC6#8
  | .permit => 0xC7#8
  | .loss => 0xC8#8
  | .state => 0xC9#8

/-- A notice before it takes its sequence number. -/
structure Notice where
  kind : NoticeKind
  channel : BitVec 4
  body : List Word
deriving DecidableEq, Repr

/-- The notice as a message with a tag; its modifier is 0 (R30). -/
def Notice.message (n : Notice) (tag : Byte) : Message :=
  ⟨makeHead n.kind.code tag n.channel n.body.length 0#9, n.body⟩

/-- A notice enters the RNQ at the tail and takes the sequence number (R26, R30). -/
def Outbox.enqueue (o : Outbox) (n : Notice) : Outbox :=
  { o with rnq := o.rnq ++ [n.message o.sequence], sequence := o.sequence + 1#8 }

/-- A notice is lost: the counter of its class is incremented (R27). LOSS belongs to no class. -/
def Outbox.lose (o : Outbox) (kind : NoticeKind) : Outbox :=
  match kind with
  | .markHit => { o with lostMark := saturatingAdd o.lostMark 1 }
  | .runEnd | .cycleEnd | .state => { o with lostRun := saturatingAdd o.lostRun 1 }
  | .capture | .rateSample => { o with lostData := saturatingAdd o.lostData 1 }
  | .fault | .trip | .permit => { o with lostSafety := saturatingAdd o.lostSafety 1 }
  | .loss => o

/-- The LOSS notice in front of a notice: word 0 is that notice's ordinal, word 1 the counters (R28). -/
def Outbox.lossNotice (o : Outbox) (n : Notice) : Notice :=
  ⟨.loss, deviceChannel, [n.body.headD 0#32 &&& 0xFFFF#32, o.lostWord]⟩

def Outbox.clearLost (o : Outbox) : Outbox :=
  { o with lostMark := 0#8, lostRun := 0#8, lostData := 0#8, lostSafety := 0#8 }

/-- The Outbox once the losses have been reported, if there are any (R28). -/
def Outbox.reportLosses (o : Outbox) (n : Notice) : Outbox :=
  if o.lostAny then (o.enqueue (o.lossNotice n)).clearLost else o

/-- A notice is offered (R27, R28): without room it is lost; with room the losses so far are reported by
a LOSS notice first, and the offered notice is tested again. -/
def State.offer (s : State) (n : Notice) : State :=
  if s.out.admits then
    let o := s.out.reportLosses n
    if o.admits then s.withOut (o.enqueue n)
    else (s.withOut (o.lose n.kind)).withPort { s.port with noticeLostSticky := true }
  else (s.withOut (s.out.lose n.kind)).withPort { s.port with noticeLostSticky := true }

/-- A notice is offered when a condition holds. -/
def State.offerIf (s : State) (b : Bool) (n : Notice) : State := if b then s.offer n else s

/-! ### Line actions, pulses and gaps (R140 to R144) -/

inductive LineAction where
  | set | clear | toggle | pulse (width : BitVec 16)
deriving DecidableEq, Repr

/-- Pair j enters its gap, or restarts it in full (R144). -/
def State.enterGap (s : State) (j : Fin 6) : State :=
  s.setPair j { s.pair j with gapLeft := some ((s.pair j).gap.toNat * microsecond) }

/-- The pair of a line is in effect an owned pair: its line is PAIR_EVEN or PAIR_ODD and has an owner. -/
def State.ownedPair (s : State) (j : Fin 6) : Bool := (s.pair j).paired && ((s.line (evenLine j)).owner != .nobody)

/-- The logical state and the pulse timer of a line take new values. On the even line of an owned pair a
change of logical state while PERMITTED is a change of target, so the pair enters its gap (R144). -/
def State.setLogical (s : State) (n : Fin 12) (active : Bool) (pulse : Option Nat) : State :=
  let t := s.setLine n { s.line n with active := active, pulseLeft := pulse }
  if (s.line n).active ≠ active ∧ s.pairing n = .pairEven ∧ s.ownedPair (pairOfLine n) = true ∧ s.trip.permit = .permitted then
    t.enterGap (pairOfLine n)
  else t

/-- A line action (R140). -/
def State.lineAction (s : State) (n : Fin 12) : LineAction → State
  | .set => s.setLogical n true none
  | .clear => s.setLogical n false none
  | .toggle => s.setLogical n (!(s.line n).active) none
  | .pulse width => s.setLogical n true (some (width.toNat * millisecond))

/-- CLEAR on a line when channel k owns it. -/
def State.releaseLine (k : Fin 6) (s : State) (n : Fin 12) : State :=
  if (s.line n).owner = .channel k then s.lineAction n .clear else s

/-- The release of channel k's lines (R142). -/
def State.releaseLines (s : State) (k : Fin 6) : State := lineNumbers.foldl (State.releaseLine k) s

/-- CLEAR on a line of channel k that is ACTIVE with an idle pulse timer. -/
def State.partialReleaseLine (k : Fin 6) (s : State) (n : Fin 12) : State :=
  if (s.line n).owner = .channel k ∧ (s.line n).active = true ∧ (s.line n).pulseLeft = none then s.lineAction n .clear else s

/-- The partial release of R88 and R142. -/
def State.partialRelease (s : State) (k : Fin 6) : State := lineNumbers.foldl (State.partialReleaseLine k) s

/-! ### The permit (R144, R160, R163, R168, R169) -/

/-- An owned pair enters its gap. -/
def State.gapIfOwned (s : State) (j : Fin 6) : State := if s.ownedPair j then s.enterGap j else s

/-- The permit takes a new state. A change between PERMITTED and either other state changes the target of
every pair, so every owned pair enters its gap (R144). -/
def State.setPermit (s : State) (p : Permit) : State :=
  let t := s.withTrip { s.trip with permit := p }
  if (s.trip.permit == .permitted) ≠ (p == .permitted) then pairNumbers.foldl State.gapIfOwned t else t

/-- The TRIP notice of R175. -/
def State.tripNotice (s : State) (source : TripSource) (ordinal : BitVec 16) : Notice :=
  ⟨.trip, deviceChannel,
    [place 0 ordinal ||| place 16 source.code ||| place 20 source.place ||| placeFlag 23 (s.trip.config.policy == .freeze),
     place 0 (ordinal - 1#16) ||| s.enabledCauses <<< 16]⟩

/-- A withdrawal (R163): TRIPPED, the ordinal and the last trip, the TRIP notice. The freeze of step 4
follows from the permit and the policy (R166). -/
def State.withdraw (s : State) (source : TripSource) : State :=
  let t := s.setPermit .tripped
  let u := t.nextOrdinal
  (u.withTrip { u.trip with last := some ⟨source, t.out.ordinal⟩ }).offer (t.tripNotice source t.out.ordinal)

/-- Step 2 of R164: a withdrawal when the source is enabled and the permit is PERMITTED. -/
def State.withdrawIf (s : State) (enabled : Bool) (source : TripSource) : State :=
  if enabled = true ∧ s.trip.permit = .permitted then s.withdraw source else s

/-- The PERMIT notice of R176; `auto` is the auto-resume channel, none for RESUME. -/
def State.permitNotice (s : State) (auto : Option (Fin 6)) (previous : Permit) (ordinal : BitVec 16) : Notice :=
  ⟨.permit, deviceChannel,
    [place 0 ordinal ||| placeNat 16 (if auto.isSome then 2 else 1) ||| placeFlag 18 (previous == .tripped)
       ||| placeNat 20 (match auto with | some k => k.val | none => 0),
     s.presentCauses &&& ~~~s.enabledCauses]⟩

/-- A grant of the permit (R168 step 3, R169). -/
def State.grant (s : State) (auto : Option (Fin 6)) : State :=
  let t := s.setPermit .permitted
  t.nextOrdinal.offer (t.permitNotice auto s.trip.permit t.out.ordinal)

/-! ### The Fault Ledger (R178 to R182) -/

def LedgerRecord.isFor (r : LedgerRecord) (source : LedgerSource) (kind : LedgerKind) : Bool :=
  r.source == source && r.kind == kind

/-- The list with the condition of the record of a source and kind set. -/
def setConditionIn (source : LedgerSource) (kind : LedgerKind) (active : Bool) : List LedgerRecord → List LedgerRecord
  | [] => []
  | r :: rest => (if r.isFor source kind then { r with active := active } else r) :: setConditionIn source kind active rest

/-- The record of a source and kind, if there is one, turns ACTIVE or STANDING (R179). -/
def State.setCondition (s : State) (source : LedgerSource) (kind : LedgerKind) (active : Bool) : State :=
  s.withLedger { s.ledger with records := setConditionIn source kind active s.ledger.records }

/-- The list with the record of a source and kind updated by a further occurrence (R180 step 2). -/
def repeatIn (source : LedgerSource) (kind : LedgerKind) (present : Bool) : List LedgerRecord → List LedgerRecord
  | [] => []
  | r :: rest =>
    (if r.isFor source kind then
      { r with repeats := if r.repeats = 15#4 then 15#4 else r.repeats + 1#4, active := present || r.active }
    else r) :: repeatIn source kind present rest

/-- The channel field of a FAULT notice: k for a source CHk, 15 for every other source (R182). -/
def LedgerSource.noticeChannel : LedgerSource → BitVec 4
  | .channel k => channelField k
  | _ => deviceChannel

/-- The FAULT notice of R182. -/
def faultNotice (r : LedgerRecord) (unrecorded : Bool) (count : Nat) : Notice :=
  ⟨.fault, r.source.noticeChannel, [place 0 r.ordinal ||| placeFlag 16 unrecorded ||| placeNat 20 count, r.word]⟩

/-- A fault occurrence (R180). -/
def State.faultOccurrence (s : State) (source : LedgerSource) (kind : LedgerKind) (present : Bool) : State :=
  let t := s.nextOrdinal
  let r : LedgerRecord := ⟨s.out.ordinal, source, kind, present, 0#4⟩
  if s.ledger.records.any (·.isFor source kind) then
    t.withLedger { s.ledger with records := repeatIn source kind present s.ledger.records }
  else if s.ledger.records.length < ledgerSlots then
    (t.withLedger { s.ledger with records := s.ledger.records ++ [r] }).offer
      (faultNotice r false (s.ledger.records.length + 1))
  else
    (t.withLedger { s.ledger with lost := true }).offer (faultNotice r true s.ledger.records.length)

/-! ### The host watch (R10, R170) -/

/-- The watch timer at its full time, stopped when watch is 0. -/
def TripConfig.fullWatch (c : TripConfig) : Option Nat :=
  if c.watch = 0#8 then none else some (c.watch.toNat * tenMilliseconds)

/-- The commit signal: the watch restarts and a host-lost condition ends (R10, R165, R170). -/
def State.signOfLife (s : State) : State :=
  let t := s.withTrip { s.trip with watchLeft := s.trip.config.fullWatch, hostLost := false }
  if s.trip.hostLost then t.setCondition .host .hostLost false else t

/-! ### Input filters (R38, R39, R47) -/

/-- The pin takes a level (R38): a change away from the filtered level starts a candidate, a return to it
drops the candidate. While the part is not ready there is no candidate, and the filtered level follows the
pin, from which initialisation takes it (R57). -/
def FilteredInput.change (i : FilteredInput) (ready : Bool) (level : Bool) : FilteredInput :=
  if ready = false then .at level
  else if level = i.filtered then { i with pin := level, held := none }
  else if i.held = none then { i with pin := level, held := some 0 }
  else { i with pin := level }

/-- A candidate held for the filter time (R38). -/
def FilteredInput.due (i : FilteredInput) (time : Nat) : Bool :=
  match i.held with
  | some t => decide (time ≤ t)
  | none => false

/-- The candidate is accepted: the filtered level takes its level and it ends (R38). -/
def FilteredInput.accept (i : FilteredInput) : FilteredInput := { i with filtered := !i.filtered, held := none }

/-- A candidate in progress restarts its held time (R39). -/
def FilteredInput.restart (i : FilteredInput) : FilteredInput := { i with held := i.held.map (fun _ => 0) }

/-- The channel whose active count_filter governs a count-input pin: the pin's own, but for CA of the odd
partner of a SPAN channel, which the even channel filters (R39, R47). -/
def State.filterChannel (s : State) (p : Fin 12) : Fin 6 :=
  let k := channelOfPin p
  if p = pinCA k ∧ isEven k = false ∧ (s.chan (partner k)).active.mode = .span then partner k else k

def State.countFilterOf (s : State) (p : Fin 12) : BitVec 2 := (s.chan (s.filterChannel p)).active.countFilter

/-- A count input restarts its candidate. Within an instant it is noted, so that the candidate is accepted at an
instant of its own after this one (R39). -/
def FrontEnd.restartCount (f : FrontEnd) (p : Fin 12) (within : Bool) : FrontEnd :=
  { f with
    count := f.count.set p f.count[p].restart
    restarted := if within then f.restarted ||| 1#12 <<< p.val else f.restarted }

/-- A pin's candidate restarts when its routing or its filter setting differs from what it was in
`before` (R39, R47). -/
def State.refilterPin (before : State) (s : State) (p : Fin 12) : State :=
  if before.filterChannel p = s.filterChannel p ∧ before.countFilterOf p = s.countFilterOf p then s
  else s.withInputs (s.inputs.restartCount p s.instant.isSome)

def State.refilter (before : State) (s : State) : State := countPinNumbers.foldl (State.refilterPin before) s

/-! ### Terms, gates and the stall timer (R53, R75, R86, R97) -/

/-- The stall timer at its full time when its conditions hold: RUNNING, gate open, stall not 0 (R97). -/
def Channel.fullStall (c : Channel) : Option Nat :=
  if c.state = .running ∧ c.gateOpen = true ∧ c.active.stall ≠ 0#8 then some (c.active.stall.toNat * tenMilliseconds) else none

/-- The held values of the terms and the gate are taken from the DIN levels without an edge (R53). In
RUNNING a gate that closes, or a stall of 0, stops the stall timer; a gate that opens, or a change of
stall from oldStall, starts it in full (R75, R86, R97; log entry 16). -/
def Channel.evaluate (c : Channel) (f : FrontEnd) (oldStall : Byte) : Channel :=
  let e := { c with
    heldStart := f.termValue c.active.startTerm
    heldRestart := f.termValue c.active.restartTerm
    heldQuench := f.termValue c.active.quenchTerm
    heldResync := f.termValue c.active.resyncTerm
    gateOpen := f.gateLevel c.active.gate }
  if c.state = .running then
    { e with stallLeft :=
        if e.gateOpen = false ∨ c.active.stall = 0#8 then none
        else if c.gateOpen = false ∨ c.active.stall ≠ oldStall then e.fullStall
        else c.stallLeft }
  else e

end Sys2Proof.Machine
end

