-- ==== Sys2Proof/Machine/Runs.lean ====
section
/-! DEFINITION. What a channel does: captures, mark firings, copies of the staged set, completion, cycle
ends, faults, applied steps, term edges and window ends (Chapters 3, 5, 6 and 7). -/

namespace Sys2Proof.Machine

/-! ### Captures (R127, R128, R130) -/

/-- The index a capture record takes: the low 12 bits of the cycle index in LOOP, of the window count in
PACE, 0 in TALLY and SPAN (R128). -/
def Channel.captureIndex (c : Channel) : BitVec 12 :=
  match c.active.mode with
  | .loop => c.cycleIndex.setWidth 12
  | .pace => c.windowCount.setWidth 12
  | .off | .tally | .span => 0#12

/-- The FIFO after an attempt: the record is appended, or dropped and counted when four are held (R127). -/
def Channel.takeRecord (c : Channel) (r : CaptureRecord) : Channel :=
  if c.captures.length < fifoSlots then { c with captures := c.captures ++ [r] }
  else { c with overcapture := saturatingAdd c.overcapture 1 }

/-- The CAPTURE notice (R130). -/
def captureNotice (k : Fin 6) (r : CaptureRecord) (fill : Nat) (dropped : Bool) : Notice :=
  ⟨.capture, channelField k,
    [place 0 r.ordinal ||| placeNat 16 fill ||| placeFlag 19 dropped ||| place 20 r.cause, r.value]⟩

/-- A capture attempt with its value (R127). -/
def State.captureAttempt (s : State) (k : Fin 6) (cause : BitVec 4) (value : Word) : State :=
  let r : CaptureRecord := ⟨value, (s.chan k).captureIndex, cause, s.out.ordinal⟩
  let t := s.nextOrdinal.modChan k (·.takeRecord r)
  t.offer (captureNotice k r (t.chan k).captures.length (decide (fifoSlots ≤ (s.chan k).captures.length)))

/-! ### The firing of a mark (R122, R123) -/

/-- The line action of a mark record. -/
def Mark.lineAction (m : Mark) : Option LineAction :=
  match m.action with
  | .nothing => none
  | .set => some .set
  | .clear => some .clear
  | .toggle => some .toggle
  | .pulse => some (.pulse m.width)

/-- Step 1 of a firing. -/
def State.markAction (s : State) (m : Mark) : State :=
  match m.line, m.lineAction with
  | some n, some a => s.lineAction n a
  | _, _ => s

/-- Word 2 of a MARK_HIT notice. -/
def Channel.markHitCount (c : Channel) : BitVec 16 :=
  match c.active.mode with
  | .loop => c.cycleIndex
  | .pace => c.windowCount
  | .off | .tally | .span => 0#16

/-- The MARK_HIT notice (R123). -/
def markHitNotice (k : Fin 6) (c : Channel) (i : Nat) (m : Mark) (value : Word) (ordinal : BitVec 16) : Notice :=
  ⟨.markHit, channelField k,
    [place 0 ordinal ||| placeNat 16 i ||| placeFlag 19 ((c.active.mode == .pace) && (m.crossing == .falling)),
     value, place 0 c.markHitCount]⟩

/-- The firing of mark i: line action, capture attempt, ordinal, notice (R122). The value is V in the
counting modes and the sample in PACE. -/
def State.fireMark (s : State) (k : Fin 6) (i : Nat) (m : Mark) (value : Word) : State :=
  let t := s.markAction m
  let u := if m.capture then t.captureAttempt k (BitVec.ofNat 4 (i + 1)) value else t
  u.nextOrdinal.offerIf m.notify (markHitNotice k (u.chan k) i m value u.out.ordinal)

def State.setArming (s : State) (k : Fin 6) (a : Arming) : State := s.modChan k fun c => { c with arming := a }

/-- Mark i under ALL: it is disarmed and fires when it is armed and its position equals p (R118). -/
def State.fireFlag (p : Int) (k : Fin 6) (s : State) (i : Nat) : State :=
  match (s.chan k).arming, (s.chan k).active.marks[i]? with
  | .flags f, some m =>
    if f.getLsbD i = true ∧ (s.chan k).active.position m = p then
      (s.setArming k (.flags (f &&& ~~~(1#8 <<< i)))).fireMark k i m (s.chan k).value
    else s
  | _, _ => s

/-- The head after it has moved past mark i of the list (R119). -/
def ChannelConfig.nextHead (c : ChannelConfig) (i : Nat) : Arming :=
  .head (if i + 1 < c.marks.length then some (i + 1) else none)

/-- The head under SEQUENCE fires while its position equals p, moving on after each firing (R119). At most
as many marks fire as the first argument says. -/
def State.fireHead (p : Int) (k : Fin 6) : Nat → State → State
  | 0, s => s
  | n + 1, s =>
    match (s.chan k).arming with
    | .head (some i) =>
      match (s.chan k).active.marks[i]? with
      | some m =>
        if (s.chan k).active.position m = p then
          State.fireHead p k n ((s.fireMark k i m (s.chan k).value).setArming k ((s.chan k).active.nextHead i))
        else s
      | none => s
    | _ => s

/-- The firings of an applied forward step with new progress p (R118, R119). -/
def State.fireMarks (s : State) (k : Fin 6) (p : Int) : State :=
  match (s.chan k).arming with
  | .flags _ => markNumbers.foldl (State.fireFlag p k) s
  | .head _ => State.fireHead p k markSlots s

/-! ### Copies of the staged set (R71, R74, R75) -/

/-- The staged set becomes the active set, with the effects of R39, R53 and R75 on filters, held values,
gate and stall timer. -/
def State.copyStaged (s : State) (k : Fin 6) : State :=
  let t := s.modChan k fun c => { c with active := c.staged, commitPending := false }
  let u := State.refilter s t
  u.modChan k (·.evaluate u.inputs (s.chan k).active.stall)

/-- A pending commit is applied at a boundary (R74). The arming state is rebuilt for the new list: all
armed in RUNNING, all disarmed in every other state (R116). -/
def State.pendingCopy (s : State) (k : Fin 6) : State :=
  if (s.chan k).commitPending then
    (s.copyStaged k).modChan k fun c =>
      { c with arming := if c.state = .running then c.active.armAll else Arming.disarmed c.active.order }
  else s

/-! ### The ends of runs (R72, R87, R88, R91, R96, R99) -/

/-- A run ends: the owned lines are released, every mark is disarmed, the stall timer stops, the
resync-pending flag is cleared and a window in progress is abandoned (R72 step 1, R96 steps 1 and 2,
R99 step 1, R132). -/
def State.endRun (s : State) (k : Fin 6) : State :=
  (s.releaseLines k).modChan k fun c =>
    { c with arming := Arming.disarmed c.active.order, stallLeft := none, resyncPending := false, windowLeft := none }

/-- The end_policy of a completion (R88). -/
def State.applyEndPolicy (s : State) (k : Fin 6) : State :=
  match (s.chan k).active.endPolicy with
  | .release => s.partialRelease k
  | .hold => s

/-- Entry to COMPLETE: marks disarmed, stall timer stopped, end_policy applied (R87 steps 1 and 2, R91). -/
def State.enterComplete (s : State) (k : Fin 6) : State :=
  (s.modChan k fun c =>
    { c with state := .complete, arming := Arming.disarmed c.active.order, stallLeft := none }).applyEndPolicy k

/-- The RUN_END notice (R102): reason COMPLETE from RUNNING, QUENCHED_END from QUENCHED. -/
def runEndNotice (k : Fin 6) (was : ChannelState) (c : Channel) (ordinal : BitVec 16) : Notice :=
  ⟨.runEnd, channelField k,
    [place 0 ordinal ||| placeNat 16 (if was = .quenched then 2 else 1), c.value,
     place 0 (if c.active.mode = .loop then c.cycleIndex else 0#16)]⟩

/-- Completion of a TALLY or SPAN run (R87). -/
def State.completeRun (s : State) (k : Fin 6) : State :=
  let t := s.enterComplete k
  (t.nextOrdinal.offer (runEndNotice k (s.chan k).state (t.chan k) t.out.ordinal)).pendingCopy k

/-- The CYCLE_END notice (R103). -/
def cycleEndNotice (k : Fin 6) (cycleIndex : BitVec 16) (last : Bool) (ordinal : BitVec 16) : Notice :=
  ⟨.cycleEnd, channelField k, [place 0 ordinal ||| place 16 cycleIndex, placeFlag 0 last]⟩

/-- The final cycle end (R91). -/
def State.finalCycleEnd (s : State) (k : Fin 6) : State :=
  let t := s.enterComplete k
  let u := t.nextOrdinal.offerIf (t.chan k).active.notifyCycles (cycleEndNotice k (t.chan k).cycleIndex true t.out.ordinal)
  (u.offer (runEndNotice k (s.chan k).state (t.chan k) t.out.ordinal)).pendingCopy k

/-- A wrap of the auto-resume channel grants a TRIPPED permit when no enabled cause is present (R169). -/
def State.autoResume (s : State) (k : Fin 6) : State :=
  if s.trip.config.autoChannel = some k ∧ s.trip.permit = .tripped ∧ s.enabledCauses = 0#32 then s.grant (some k) else s

/-- At a wrap, V takes the load value of the now-active set and the marks are armed anew in RUNNING (R90
steps 3 and 4). -/
def Channel.reloadAtWrap (c : Channel) : Channel :=
  { c with
    value := c.active.loadValue
    arming := if c.state = .running then c.active.armAll else Arming.disarmed c.active.order }

/-- A wrap (R90). -/
def State.wrap (s : State) (k : Fin 6) : State :=
  let t := (s.nextOrdinal.pendingCopy k).modChan k Channel.reloadAtWrap
  (t.offerIf (s.chan k).active.notifyCycles (cycleEndNotice k (s.chan k).cycleIndex false s.out.ordinal)).autoResume k

/-- The cycle end now due ends the run: repeat is not 0, and the cycles completed with this one have reached it (R89).
DEDUCED (log entry 27): the increased index is tested before it wraps, so that a repeat which a copy at a cycle index of
65535 brought ends the run, as R75 says. -/
def Channel.lastCycle (c : Channel) : Bool := decide (c.active.repeats ≠ 0#16 ∧ c.active.repeats.toNat ≤ c.cycleIndex.toNat + 1)

/-- A cycle end of a LOOP channel: the cycle index increases by 1, wrapping from 65535 to 0, and the cycle end is final
or a wrap (R75, R89). -/
def State.cycleEnd (s : State) (k : Fin 6) : State :=
  let t := s.modChan k fun c => { c with cycleIndex := c.cycleIndex + 1#16 }
  if (s.chan k).lastCycle then t.finalCycleEnd k else t.wrap k

def ChannelFault.kind : ChannelFault → LedgerKind
  | .stall => .stall
  | .overflow => .overflow

/-- The Trip Unit holds or drops the handed flag of a channel (R162). -/
def State.setHanded (s : State) (k : Fin 6) (b : Bool) : State :=
  s.withTrip { s.trip with handed := s.trip.handed.set k b }

/-- Step 3 of R99: a fault with fault_trips set is handed to the Trip Unit, which may withdraw the permit. -/
def State.handFault (s : State) (k : Fin 6) (trips : Bool) : State :=
  if trips then (s.setHanded k true).withdrawIf true (.channelFault k) else s

/-- A channel faults (R99). -/
def State.channelFault (s : State) (k : Fin 6) (fault : ChannelFault) : State :=
  let t := (s.endRun k).modChan k fun c => { c with state := .faulted, faultedBy := some fault }
  ((t.faultOccurrence (.channel k) fault.kind true).handFault k (s.chan k).active.faultTrips).pendingCopy k

/-- The channel has left FAULTED: its cause ends, its record turns STANDING and its handed flag is cleared
(R96 step 4, R165, R179). -/
def State.leaveFaulted (s : State) (k : Fin 6) (fault : Option ChannelFault) : State :=
  match fault with
  | some f => ((s.setCondition (.channel k) f.kind false).setHanded k false).modChan k fun c => { c with faultedBy := none }
  | none => s

/-! ### Entering RUNNING and QUENCHED (R83, R93, R94) -/

/-- Entry to RUNNING: the stall timer starts in full if its conditions hold (R83). -/
def Channel.enterRunning (c : Channel) : Channel :=
  let d := { c with state := .running }
  { d with stallLeft := d.fullStall }

/-- The window timer starts, with the length of the active window (R132). -/
def Channel.startWindow (c : Channel) : Channel :=
  { c with windowLeft := some ⟨windowTime c.active.window, c.active.window⟩ }

/-- Entry to RUNNING from START or from ARMED: a PACE channel begins its first window (R83). -/
def Channel.beginRun (c : Channel) : Channel :=
  let d := c.enterRunning
  if d.active.mode = .pace then d.startWindow else d

/-- Entry to QUENCHED (R93). -/
def State.enterQuenched (s : State) (k : Fin 6) : State :=
  (s.releaseLines k).modChan k fun c =>
    { c with state := .quenched, arming := Arming.disarmed c.active.order, stallLeft := none }

/-- The arming state on a return from QUENCHED: the marks ahead of present progress in the counting modes
(R117), every mark in PACE (R116). -/
def Channel.rearmForRestart (c : Channel) : Channel :=
  { c with arming :=
      if c.active.mode.counting then c.active.armAhead (c.active.progress c.value) else c.active.armAll }

/-- A return from QUENCHED to RUNNING (R94). -/
def State.restartChannel (s : State) (k : Fin 6) : State := s.modChan k fun c => c.rearmForRestart.enterRunning

/-! ### Applied steps (R80, R84, R85, R92, R98) -/

/-- A step is applied: RUNNING or QUENCHED, the gate open as it stood before the instant, not frozen (R84). -/
def State.appliesStep (s : State) (k : Fin 6) (gate : Bool) : Bool := (s.chan k).state.counts && gate && !s.frozen k

/-- V as a step would leave it, exactly (R78). -/
def Channel.stepped (c : Channel) (forward : Bool) : Int :=
  if forward = (c.active.direction == .up) then c.value.toInt + 1 else c.value.toInt - 1

def inRange (x : Int) : Bool := decide (-(2 ^ 31) ≤ x) && decide (x ≤ 2 ^ 31 - 1)

/-- The stall timer restarts in full in RUNNING (R85 item 4); in QUENCHED it stays as it is. -/
def Channel.restartStall (c : Channel) : Channel := if c.state = .running then { c with stallLeft := c.fullStall } else c

/-- A resync step (R92). -/
def Channel.resyncStep (c : Channel) : Channel :=
  Channel.restartStall { c with value := c.active.loadValue, resyncPending := false }

/-- Items 5 and 6 of R85, for a forward step that left progress p. -/
def State.afterForwardStep (s : State) (k : Fin 6) (p : Int) : State :=
  let t := if (s.chan k).state = .running then s.fireMarks k p else s
  if p = (s.chan k).active.finalValue then
    (if (s.chan k).active.mode = .loop then t.cycleEnd k else t.completeRun k)
  else t

/-- An applied step in TALLY, SPAN or LOOP (R85). -/
def State.countStep (s : State) (k : Fin 6) (forward : Bool) : State :=
  let c := s.chan k
  if c.resyncPending then s.modChan k Channel.resyncStep
  else if inRange (c.stepped forward) = false then s.channelFault k .overflow
  else
    let t := s.modChan k fun d => Channel.restartStall { d with value := BitVec.ofInt 32 (c.stepped forward) }
    if forward then t.afterForwardStep k (c.active.progress (BitVec.ofInt 32 (c.stepped forward))) else t

/-- The accumulator after an applied PACE step, saturating at the ends of its range (R131). -/
def Channel.accumulate (c : Channel) (forward : Bool) : Channel :=
  let x := if forward then c.accumulator.toInt + 1 else c.accumulator.toInt - 1
  if inRange x then { c with accumulator := BitVec.ofInt 32 x } else c

/-- A step handed to a channel whose gate stood as given before the instant: applied or ignored (R84), and
applied by mode (R80). -/
def State.takeStep (k : Fin 6) (gate : Bool) (s : State) (forward : Bool) : State :=
  if s.appliesStep k gate then
    match (s.chan k).active.mode with
    | .off => s
    | .pace => s.modChan k (·.accumulate forward)
    | .tally | .span | .loop => s.countStep k forward
  else s

/-! ### From filtered levels to steps (R40 to R47) -/

/-- A counted edge: LOW to HIGH under RISE, HIGH to LOW under FALL (R40). -/
def countedEdge (e : Edge) (before after : Bool) : Bool :=
  match e with
  | .rise => !before && after
  | .fall => before && !after

inductive Transition where
  | unchanged | forward | backward | phaseError
deriving DecidableEq, Repr

/-- The table of R44: the phase state (CA, CB) before and after the instant, true for HIGH. -/
def transition : Bool → Bool → Bool → Bool → Transition
  | false, false, true, false => .forward
  | false, false, true, true => .phaseError
  | false, false, false, true => .backward
  | true, false, false, false => .backward
  | true, false, true, true => .forward
  | true, false, false, true => .phaseError
  | true, true, false, false => .phaseError
  | true, true, true, false => .backward
  | true, true, false, true => .forward
  | false, true, false, false => .forward
  | false, true, true, false => .phaseError
  | false, true, true, true => .backward
  | false, false, false, false => .unchanged
  | true, false, true, false => .unchanged
  | true, true, true, true => .unchanged
  | false, true, false, true => .unchanged

/-- The steps of a transition, one or none; true for forward. -/
def Transition.steps : Transition → List Bool
  | .forward => [true]
  | .backward => [false]
  | .unchanged | .phaseError => []

/-- The steps of an instant under a decode, in order, true for forward (R41 to R45). QUAD2 steps on the
transitions of CA alone, QUAD1 on a rise of CA alone. -/
def decodeSteps (c : ChannelConfig) (a b a' b' : Bool) : List Bool :=
  match c.decode with
  | .step => if countedEdge c.edge a a' then [true] else []
  | .stepDir => if countedEdge c.edge a a' then [!b] else []
  | .twoLine => (if countedEdge c.edge a a' then [true] else []) ++ (if countedEdge c.edge b b' then [false] else [])
  | .quad4 => (transition a b a' b').steps
  | .quad2 => if a ≠ a' ∧ b = b' then (transition a b a' b').steps else []
  | .quad1 => if a = false ∧ a' = true ∧ b = b' then (transition a b a' b').steps else []

/-- A phase error is counted under the quadrature decodes only (R46). -/
def decodePhaseError (c : ChannelConfig) (a b a' b' : Bool) : Bool :=
  match c.decode with
  | .quad1 | .quad2 | .quad4 => transition a b a' b' == .phaseError
  | .step | .stepDir | .twoLine => false

/-- The steps of channel k in an instant: its own decode, or in SPAN its own CA forward and its partner's
CA backward (R47). None when its mode is OFF or it is LENT (R40). -/
def State.stepsOf (s : State) (before after : FrontEnd) (k : Fin 6) : List Bool :=
  let c := (s.chan k).active
  if c.mode = .off ∨ (s.chan k).state = .lent then []
  else if c.mode = .span then
    (if countedEdge c.edge before.count[pinCA k].filtered after.count[pinCA k].filtered then [true] else [])
      ++ (if countedEdge c.edge before.count[pinCA (partner k)].filtered after.count[pinCA (partner k)].filtered
          then [false] else [])
  else
    decodeSteps c before.count[pinCA k].filtered before.count[pinCB k].filtered
      after.count[pinCA k].filtered after.count[pinCB k].filtered

def State.phaseErrorOf (s : State) (before after : FrontEnd) (k : Fin 6) : Bool :=
  let c := (s.chan k).active
  !(decide (c.mode = .off ∨ (s.chan k).state = .lent)) && decodePhaseError c before.count[pinCA k].filtered
    before.count[pinCB k].filtered after.count[pinCA k].filtered after.count[pinCB k].filtered

/-- Category 3 of an instant for one channel: a phase error is counted, and the steps are taken in order,
each whole (R32, R46). All are judged by the gate before the first of them: a copy at a wrap may change the
gate between two steps of one instant (R54, R84). -/
def State.takeSteps (before after : FrontEnd) (s : State) (k : Fin 6) : State :=
  let t :=
    if s.phaseErrorOf before after k then s.modChan k fun c => { c with phaseErrors := saturatingAdd c.phaseErrors 1 } else s
  (s.stepsOf before after k).foldl (State.takeStep k (s.chan k).gateOpen) t

/-! ### Term edges (R52, R83, R93, R94, R95, R104) -/

/-- The STATE notice (R104); cause 1 start term, 2 quench term, 3 restart term. -/
def stateNotice (k : Fin 6) (new old : ChannelState) (cause : Nat) (value : Word) (ordinal : BitVec 16) : Notice :=
  ⟨.state, channelField k,
    [place 0 ordinal ||| place 16 new.code ||| place 20 old.code ||| placeNat 24 cause, value]⟩

/-- A change of state caused by a term takes the next ordinal and offers a STATE notice if notify_state
is set. -/
def State.reportState (s : State) (k : Fin 6) (old : ChannelState) (cause : Nat) : State :=
  s.nextOrdinal.offerIf (s.chan k).active.notifyState
    (stateNotice k (s.chan k).state old cause (s.chan k).value s.out.ordinal)

/-- A rising edge of start_term acts in ARMED (R83, R95). -/
def State.startEdge (s : State) (k : Fin 6) : State :=
  if (s.chan k).state = .armed then (s.modChan k Channel.beginRun).reportState k .armed 1 else s

/-- A rising edge of quench_term acts in RUNNING (R93, R95). -/
def State.quenchEdge (s : State) (k : Fin 6) : State :=
  if (s.chan k).state = .running then (s.enterQuenched k).reportState k .running 2 else s

/-- A rising edge of restart_term acts in QUENCHED (R94, R95). -/
def State.restartEdge (s : State) (k : Fin 6) : State :=
  if (s.chan k).state = .quenched then (s.restartChannel k).reportState k .quenched 3 else s

/-- A rising edge of resync_term acts in RUNNING and QUENCHED of a LOOP channel (R92, R95). -/
def State.resyncEdge (s : State) (k : Fin 6) : State :=
  if (s.chan k).active.mode = .loop ∧ (s.chan k).state.counts = true then
    s.modChan k fun c => { c with resyncPending := true }
  else s

/-- A capture-source event acts in RUNNING and QUENCHED (R126); its value is the accumulator in PACE and V
in the counting modes (R128). -/
def State.captureEdge (s : State) (k : Fin 6) : State :=
  if (s.chan k).state.counts then
    s.captureAttempt k 0#4 (if (s.chan k).active.mode = .pace then (s.chan k).accumulator else (s.chan k).value)
  else s

def State.when (b : Bool) (f : State → State) (s : State) : State := if b then f s else s

/-- Category 4 of an instant for one channel, once the DIN changes have been applied: gate, start, quench,
restart, resync, capture source (R32, R52). A frozen channel ignores every edge and event, and its held
values are updated all the same (R95, R166). -/
def State.evaluateChannel (before : FrontEnd) (s : State) (k : Fin 6) : State :=
  let c := s.chan k
  let f := s.inputs
  let t := s.modChan k (·.evaluate f c.active.stall)
  if t.frozen k then t
  else
    let t := State.when (f.termValue c.active.startTerm && !c.heldStart) (·.startEdge k) t
    let t := State.when (f.termValue c.active.quenchTerm && !c.heldQuench) (·.quenchEdge k) t
    let t := State.when (f.termValue c.active.restartTerm && !c.heldRestart) (·.restartEdge k) t
    let t := State.when (f.termValue c.active.resyncTerm && !c.heldResync) (·.resyncEdge k) t
    State.when (captureEvent before f c.active.captureSource) (·.captureEdge k) t

/-! ### Window ends (R121, R134, R136) -/

/-- A PACE mark fires (R121): RISING when P < T ≤ S, FALLING when P ≥ T > S. -/
def Mark.crosses (m : Mark) (previous sample : Word) : Bool :=
  match m.crossing with
  | .rising => decide (previous.toInt < m.target.toInt) && decide (m.target.toInt ≤ sample.toInt)
  | .falling => decide (m.target.toInt ≤ previous.toInt) && decide (sample.toInt < m.target.toInt)

/-- Mark i of the active list at a window end; the firing does not disarm it (R121). -/
def State.fireCrossing (previous sample : Word) (k : Fin 6) (s : State) (i : Nat) : State :=
  match (s.chan k).active.marks[i]? with
  | some m =>
    if (s.chan k).arming.bits.getLsbD i = true ∧ m.crosses previous sample = true then s.fireMark k i m sample else s
  | none => s

/-- Steps 1 to 3 of a window end. -/
def Channel.takeSample (c : Channel) : Channel :=
  { c with
    windowCount := c.windowCount + 1#16
    ring := (c.accumulator :: c.ring).take ringSlots
    accumulator := 0#32 }

/-- The RATE_SAMPLE notice (R136). -/
def rateSampleNotice (k : Fin 6) (count : BitVec 16) (sample : Word) (length : WindowLength) (quenched : Bool)
    (ordinal : BitVec 16) : Notice :=
  ⟨.rateSample, channelField k,
    [place 0 ordinal ||| place 16 count, sample, place 0 length.code ||| placeFlag 2 quenched]⟩

/-- A window end of a PACE channel whose window in progress has the given length (R134). -/
def State.windowEnd (s : State) (k : Fin 6) (length : WindowLength) : State :=
  let c := s.chan k
  let t := s.modChan k Channel.takeSample
  let u :=
    if c.state = .running then markNumbers.foldl (State.fireCrossing (c.ring.headD 0#32) c.accumulator k) t else t
  let v := u.pendingCopy k
  let w := v.nextOrdinal.modChan k fun d => { d with lastWindowOrdinal := v.out.ordinal }
  (w.offerIf c.active.notifyRate
    (rateSampleNotice k (c.windowCount + 1#16) c.accumulator length (c.state == .quenched) v.out.ordinal)).modChan k
      Channel.startWindow

end Sys2Proof.Machine
end

