-- ==== Sys2Proof/Machine/Intake.lean ====
section
/-! DEFINITION. The Command Engine: which message it takes, the checks of R21 in their order, and the one
reply of every command (R20 to R26). -/

namespace Sys2Proof.Machine

/-- The channel field a command requires (section 2.8). -/
inductive ChannelForm where
  | device | channel
deriving DecidableEq, Repr

/-- The header a command requires: its kind, its body length (none for any length), its channel form, the
modifier bits it defines, the lowest seal level that freezes it, and the body of a refusal by the checks of
R21 steps 1 to 5 (empty for every command but COMMIT, R67). -/
structure CommandForm where
  kind : Byte
  length : Option Nat
  channel : ChannelForm
  modifierMask : BitVec 9
  sealedFrom : Option Nat
  refusalBody : List Word
deriving DecidableEq, Repr

/-- A device-wide command with a fixed length and no modifier, never sealed. -/
def CommandForm.device (kind : Byte) (length : Nat) : CommandForm := ⟨kind, some length, .device, 0#9, none, []⟩

/-- A command addressed to one channel, with a fixed length and no modifier. -/
def CommandForm.channelled (kind : Byte) (length : Nat) : CommandForm := ⟨kind, some length, .channel, 0#9, none, []⟩

def CommandForm.frozenFrom (f : CommandForm) (level : Nat) : CommandForm := { f with sealedFrom := some level }
def CommandForm.withModifier (f : CommandForm) (mask : BitVec 9) : CommandForm := { f with modifierMask := mask }

/-- The channel a message addresses, none for a field above 5 (R19). -/
def Message.channel? (m : Message) : Option (Fin 6) :=
  if h : (headChannel m.head).toNat < 6 then some ⟨_, h⟩ else none

/-- The channel of a message whose channel field has been checked. -/
def Message.channelNumber (m : Message) : Fin 6 := m.channel?.getD 0

def ChannelForm.accepts (f : ChannelForm) (m : Message) : Bool :=
  match f with
  | .device => headChannel m.head == deviceChannel
  | .channel => m.channel?.isSome

/-- The checks of R21 steps 2 to 5, in order: length, channel field, undefined modifier bits, seal. -/
def CommandForm.refusal (f : CommandForm) (sealLevel : BitVec 2) (m : Message) : Option ResultCode :=
  if f.length.any (· != m.body.length) then some .badLength
  else if f.channel.accepts m = false then some .badChannel
  else if headModifier m.head &&& ~~~f.modifierMask ≠ 0#9 then some .badValue
  else if f.sealedFrom.any (· ≤ sealLevel.toNat) then some .sealed
  else none

/-- Steps 1 and 2 of R23: the message leaves the CIQ and a slot is reserved for its reply. The step stands
between two instants, so an instant in progress has ended (R32, R148). -/
def State.takeMessage (s : State) (rest : List Message) : State :=
  (s.endInstant.withPort { s.port with ciq := rest }).withOut { s.out with reserved := true }

/-- Step 5 of R23: the reply is admitted into the reserved slot, behind the notices of the command. -/
def State.admitReply (s : State) (m : Message) (r : Reply) : State :=
  s.withOut { s.out with rnq := s.out.rnq ++ [replyMessage m r], reserved := false }

/-- The message the Command Engine takes next: the front of the CIQ, when the RNQ has a free slot (R23). -/
def State.nextMessage (s : State) : Option (Message × List Message) :=
  match s.port.ciq with
  | [] => none
  | m :: rest => if s.out.rnq.length < rnqSlots then some (m, rest) else none

/-- One step of the Command Engine on a message: the checks of R21, the command's own checks and effects,
the reply (R23). -/
def State.execute (s : State) (f : CommandForm) (body : Message → State → State × Reply) (m : Message)
    (rest : List Message) : State :=
  let t := s.takeMessage rest
  match f.refusal t.sealLevel m with
  | some code => t.admitReply m ⟨code, f.refusalBody⟩
  | none => (body m t).1.admitReply m (body m t).2

/-- The step of a command row: it takes place when the message the Command Engine takes next is of the
row's kind. Otherwise there is no such step, and the state stays as it is (log entry 1). -/
def State.command (s : State) (f : CommandForm) (body : Message → State → State × Reply) : State :=
  match s.nextMessage with
  | some (m, rest) => if headKind m.head = f.kind then s.execute f body m rest else s
  | none => s

/-- A command that changes nothing and answers DONE with a body. -/
def answer (body : State → List Word) (s : State) : State × Reply := (s, .done (body s))

/-- A command that is refused and changes nothing (R21). -/
def refuse (code : ResultCode) (s : State) : State × Reply := (s, .refuse code)

/-- A command that answers DONE with an empty body. -/
def completed (s : State) : State × Reply := (s, .done [])

/-! ### Mask commands (R24, R25) -/

/-- The mask of body word 0 is valid: no bit of 31..6, and not 0. -/
def maskValid (w : Word) : Bool := (field w 6 26 == 0#26) && (field w 0 6 != 0#6)

/-- The channels a mask names, channel 0 first. -/
def namedChannels (w : Word) : List (Fin 6) := channelNumbers.filter fun k => bit w k.val

/-- The mask of the named channels for which a test holds. -/
def maskOf (w : Word) (test : Fin 6 → Bool) : Word :=
  placeFlags 0 (channelNumbers.map fun k => bit w k.val && test k)

/-- A per-channel mask command: it acts on each named channel that admits it, channel 0 first, and the
others are reported in the PARTIAL mask (R25). -/
def perChannel (legal : State → Fin 6 → Bool) (act : State → Fin 6 → State) (m : Message) (s : State) : State × Reply :=
  let w := m.word 0
  if maskValid w = false then refuse .badValue s
  else
    let t := ((namedChannels w).filter (legal s)).foldl act s
    let missed := maskOf w fun k => !legal s k
    (t, if missed = 0#32 then .done [] else ⟨.partly, [missed]⟩)

/-! ### Kinds (R20) -/

/-- The kinds assigned to commands, each given by the command's own rule. -/
def assignedKinds : List Byte :=
  [0x01#8, 0x02#8, 0x03#8, 0x18#8, 0x19#8, 0x20#8, 0x21#8, 0x22#8, 0x23#8, 0x24#8, 0x25#8, 0x28#8, 0x29#8, 0x2A#8]
    ++ [0x30#8, 0x31#8, 0x32#8, 0x33#8, 0x34#8, 0x38#8, 0x39#8, 0x40#8, 0x41#8, 0x42#8, 0x43#8, 0x44#8, 0x45#8]
    ++ [0x48#8, 0x49#8, 0x4A#8, 0x4B#8, 0x50#8, 0x51#8, 0x52#8, 0x53#8]

/-- The row of the table that stands for the step on a message of this kind. -/
def commandRow (kind : Byte) : Instr :=
  match kind.toNat with
  | 0x01 => .ping
  | 0x02 => .identify
  | 0x03 => .readStatus
  | 0x18 => .setInputs
  | 0x19 => .readInputs
  | 0x20 => .stageMode
  | 0x21 => .stageTargets
  | 0x22 => .stageTerms
  | 0x23 => .stageGuard
  | 0x24 => .commit
  | 0x25 => .readConfig
  | 0x28 => .stageMark
  | 0x29 => .clearMarks
  | 0x2A => .readMarks
  | 0x30 => .start
  | 0x31 => .restart
  | 0x32 => .quench
  | 0x33 => .halt
  | 0x34 => .readChannel
  | 0x38 => .readCaptures
  | 0x39 => .readRate
  | 0x40 => .bindLine
  | 0x41 => .unbindLine
  | 0x42 => .shapeLine
  | 0x43 => .shapePair
  | 0x44 => .driveLines
  | 0x45 => .readLines
  | 0x48 => .setTrip
  | 0x49 => .trip
  | 0x4A => .resume
  | 0x4B => .readTrip
  | 0x50 => .readFaults
  | 0x51 => .ackFault
  | 0x52 => .sealRaise
  | 0x53 => .engineReset
  | _ => .unknownKind

end Sys2Proof.Machine
end

