-- ==== Sys2Proof/Machine/Port.lean ====
section
/-! DEFINITION. The rows of the Host Port: word slots of the doorways and of the ordinary registers, and
the two ends of a transaction (Chapter 1, Chapter 11). A word slot of a transaction that is not active
changes nothing and returns 0 (R6). A row for a register that the transaction in progress does not address
is no slot of that transaction and changes nothing (log entry 1). -/

namespace Sys2Proof.Machine

/-! ### Transactions and word slots (R1, R4, R5, R6) -/

def State.modPort (s : State) (f : HostPort → HostPort) : State := s.withPort (f s.port)

def State.withTransaction (s : State) (t : Transaction) : State := s.modPort ({ · with transaction := some t })

/-- A word slot carries a word on MISO (R1); in a transaction that is not active that word is 0 (R6). -/
def State.carry (s : State) (w : Word) : State := s.modPort ({ · with miso := .word w })

/-- The end of a word slot of a write to a register: MISO carried 0, and an active transaction acts (R1,
R4, R6). -/
def State.writeSlot (s : State) (index : BitVec 7) (act : Transaction → State → State) : State :=
  match s.port.transaction with
  | some t =>
    if t.command = some (writeByte index) then
      if t.active then act t (s.carry 0#32) else s.carry 0#32
    else s
  | none => s

/-- A written word acts when it is the first word of the transaction (R4). -/
def State.firstWord (act : State → State) (t : Transaction) (s : State) : State :=
  if t.first = .awaited then act (s.withTransaction { t with first := .past })
  else s.withTransaction { t with first := .past }

/-- The acting bits of a word that are still to be taken: all of them for the first word, those left of a first
word in progress, and none for a later word (R4, R16, R193). -/
def FirstWord.left (f : FirstWord) (parts : List Nat) (word : Word) : List Nat :=
  match f with
  | .awaited => parts
  | .acting w left => if w = word then left else []
  | .past => []

/-- The first word once one of its bits has been taken. -/
def FirstWord.after (word : Word) (left : List Nat) : FirstWord := if left = [] then .past else .acting word left

/-- The row of bit b of a word written to a register: it acts when b is the next bit of the first word to be
taken; otherwise the row belongs to a later word, and the first word is over (R4; log entry 8). -/
def State.firstWordBit (parts : List Nat) (word : Word) (b : Nat) (act : State → State) (t : Transaction)
    (s : State) : State :=
  match t.first.left parts word with
  | next :: left =>
    if next = b then act (s.withTransaction { t with first := .after word left })
    else s.withTransaction { t with first := .past }
  | [] => s.withTransaction { t with first := .past }

/-- A row of bit b of a word written to LINK_CTRL or STATUS. A word that does not set the bit has no such row. -/
def State.bitSlot (s : State) (index : BitVec 7) (word : Word) (b : Nat) (act : State → State) : State :=
  if word.getLsbD b then s.writeSlot index (State.firstWordBit (partsOf index word) word b act) else s

/-! ### Inbound (R8, R9, R10) -/

/-- framing-count and the framing sticky flag (R14, R15). -/
def HostPort.framingError (p : HostPort) : HostPort :=
  { p with framingCount := saturatingAdd p.framingCount 1, framingSticky := true }

/-- Commitment (R10). -/
def State.commitMessage (s : State) (m : Message) : State :=
  (s.modPort fun p => { p with ciq := p.ciq ++ [m], assembly := none }).signOfLife

/-- The message is the assembly, and it is committed when it holds its declared number of body words. -/
def State.assemble (s : State) (m : Message) : State :=
  if m.body.length = (headLength m.head).toNat then s.commitMessage m
  else s.modPort ({ · with assembly := some m })

/-- A word pushed to PUSH_HEAD (R8). -/
def State.pushHead (s : State) (w : Word) : State :=
  if ciqSlots ≤ s.port.ciq.length then
    s.modPort fun p => { p with refusedNow := true, refusedCount := saturatingAdd p.refusedCount 1 }
  else
    State.assemble (if s.port.assembly.isSome then s.modPort HostPort.framingError else s) ⟨w, []⟩

/-- A word pushed to PUSH_BODY (R9). -/
def State.pushBody (s : State) (w : Word) : State :=
  match s.port.assembly with
  | some a => s.assemble ⟨a.head, a.body ++ [w]⟩
  | none => s.modPort HostPort.framingError

/-! ### Outbound (R5, R12, R13) -/

/-- A POP_HEAD ends the current message: its unread body words are discarded and counted (R12). -/
def HostPort.endCurrent (p : HostPort) : HostPort :=
  { p with popBuffer := [], skippedCount := saturatingAdd p.skippedCount p.popBuffer.length }

def HostPort.refuseWord (p : HostPort) : HostPort := { p with refusedNow := true }

/-- The end of a POP_HEAD slot (R12). -/
def State.finishPopHead (s : State) : SlotOutcome → State
  | .void => s
  | .refuses => s.modPort fun p => p.endCurrent.refuseWord
  | .hands =>
    match s.out.rnq with
    | m :: rest => (s.modPort fun p => { p.endCurrent with popBuffer := m.body }).withOut { s.out with rnq := rest }
    | [] => s

/-- The end of a POP_BODY slot (R13). -/
def State.finishPopBody (s : State) : SlotOutcome → State
  | .void => s
  | .refuses => s.modPort HostPort.refuseWord
  | .hands => s.modPort fun p => { p with popBuffer := p.popBuffer.tail }

/-- The clear of LINK_COUNTS (R14). -/
def State.finishLinkCounts (s : State) : SlotOutcome → State
  | .hands => s.modPort fun p => { p with framingCount := 0#8, refusedCount := 0#8, skippedCount := 0#8 }
  | .void | .refuses => s

/-- A read word slot of a register, in its two ends: at its start the port decides what it presents, at its
end the word has crossed and the state changes (R5). In a transaction that is not active the slot carries 0
and changes nothing (R6). A slot that was not opened opens and completes at once (log entry 7). -/
def State.readSlot (s : State) (index : BitVec 7) (phase : SlotPhase) (decide : Transaction → State → Slot)
    (finish : State → SlotOutcome → State) : State :=
  match s.port.transaction with
  | some t =>
    if t.command = some (readByte index) then
      let fresh := if t.active then decide t s else ⟨0#32, .void⟩
      match phase, t.slot with
      | .opens, none => s.withTransaction { t with slot := some fresh }
      | .opens, some _ => s
      | .completes, slot =>
        finish ((s.withTransaction { t with slot := none, first := .past }).carry (slot.getD fresh).presented)
          (slot.getD fresh).outcome
    else s
  | none => s

/-! ### The rows -/

/-- PUSH_HEAD (R8). -/
def execPushHead (w : Word) (s : State) : Host.Outcome State Fault Refusal :=
  .next (s.writeSlot indexPushHead fun _ t => t.pushHead w)

/-- PUSH_BODY (R9). -/
def execPushBody (w : Word) (s : State) : Host.Outcome State Fault Refusal :=
  .next (s.writeSlot indexPushBody fun _ t => t.pushBody w)

/-- POP_HEAD (R12). -/
def execPopHead (phase : SlotPhase) (s : State) : Host.Outcome State Fault Refusal :=
  .next (s.readSlot indexPopHead phase (fun _ t => t.decidePopHead) State.finishPopHead)

/-- POP_BODY (R13). -/
def execPopBody (phase : SlotPhase) (s : State) : Host.Outcome State Fault Refusal :=
  .next (s.readSlot indexPopBody phase (fun _ t => t.decidePopBody) State.finishPopBody)

/-- LINK_COUNTS_READ: the first slot carries the counters and clears them, later slots carry 0 (R4, R14). -/
def execLinkCountsRead (phase : SlotPhase) (s : State) : Host.Outcome State Fault Refusal :=
  .next (s.readSlot indexLinkCounts phase
    (fun t u => if t.first = .awaited then ⟨u.readWord indexLinkCounts 0, .hands⟩ else ⟨u.readWord indexLinkCounts 1, .void⟩)
    State.finishLinkCounts)

/-- Bit 0 of the first word of LINK_CTRL (R16). -/
def execDiscardAssembly (s : State) (w : Word := 0x00000001#32) : Host.Outcome State Fault Refusal :=
  .next (s.bitSlot indexLinkCtrl w bitAssembly (State.modPort · ({ · with assembly := none })))

/-- Bit 1 of the first word of LINK_CTRL (R16). -/
def execDiscardCiq (s : State) (w : Word := 0x00000002#32) : Host.Outcome State Fault Refusal :=
  .next (s.bitSlot indexLinkCtrl w bitCiq (State.modPort · ({ · with ciq := [] })))

/-- Bit 2 of the first word of LINK_CTRL (R16). -/
def execDiscardRnq (s : State) (w : Word := 0x00000004#32) : Host.Outcome State Fault Refusal :=
  .next (s.bitSlot indexLinkCtrl w bitRnq fun t =>
    (t.modPort ({ · with popBuffer := [] })).withOut { t.out with rnq := [] })

/-- Bit 16 of the first word of STATUS (R193). -/
def execClearFramingSticky (s : State) (w : Word := 0x00010000#32) : Host.Outcome State Fault Refusal :=
  .next (s.bitSlot indexStatus w bitFraming (State.modPort · ({ · with framingSticky := false })))

/-- Bit 17 of the first word of STATUS (R193). -/
def execClearNoticeLostSticky (s : State) (w : Word := 0x00020000#32) : Host.Outcome State Fault Refusal :=
  .next (s.bitSlot indexStatus w bitNoticeLost (State.modPort · ({ · with noticeLostSticky := false })))

/-- A word written to ATTN_MASK (R17, R194). -/
def execAttnMaskWrite (w : Word) (s : State) : Host.Outcome State Fault Refusal :=
  .next (s.writeSlot indexAttnMask (State.firstWord (State.modPort · ({ · with attnMask := field w 0 4 }))))

/-- A written word that no register takes (R4, R191). A first word that is ignored is over all the same. -/
def execIgnoredRegisterWrite (index : BitVec 7) (w : Word) (s : State) : Host.Outcome State Fault Refusal :=
  .next (if isIgnoredWrite index w then s.writeSlot index (State.firstWord id) else s)

/-- CS_N falls: the status byte, 0 while ready is 0, is sampled and MISO carries it, and the transaction is
active when ready is 1 (R1, R2, R6). -/
def execTransactionStart (command : Option Byte) (s : State) : Host.Outcome State Fault Refusal :=
  .next (match s.port.transaction with
    | some _ => s
    | none =>
      (s.withTransaction ⟨s.power.ready, s.linkStatus, command, .awaited, none⟩).modPort
        ({ · with miso := .byte s.linkStatus }))

/-- The refused latches at the end of a transaction whose command byte was complete (R3). -/
def HostPort.latchRefused (p : HostPort) (t : Transaction) : HostPort :=
  if t.command.isSome then { p with refusedLast := p.refusedNow, refusedNow := false } else p

/-- CS_N rises; a word slot in progress is discarded with it, and MISO is left at high impedance (R1, R3, R5). -/
def execTransactionEnd (s : State) : Host.Outcome State Fault Refusal :=
  .next (match s.port.transaction with
    | some t => s.modPort fun p => { p.latchRefused t with transaction := none, miso := .highImpedance }
    | none => s)

end Sys2Proof.Machine
end

