-- ==== Sys2Proof/Machine/Power.lean ====
section
/-! DEFINITION. The rows of power and reset: the supply, RST_N and the end of initialisation (R6, R57,
R161, R187, R190). -/

namespace Sys2Proof.Machine

/-- A value for each of twelve pins, eight DINs or three banks. -/
def tabulate12 {α : Type} (f : Fin 12 → α) : Vector α 12 :=
  #v[f 0, f 1, f 2, f 3, f 4, f 5, f 6, f 7, f 8, f 9, f 10, f 11]
def tabulate8 {α : Type} (f : Fin 8 → α) : Vector α 8 := #v[f 0, f 1, f 2, f 3, f 4, f 5, f 6, f 7]
def tabulate3 {α : Type} (f : Fin 3 → α) : Vector α 3 := #v[f 0, f 1, f 2]

/-- The filtered level is taken from the pin, and there is no candidate (R57). -/
def FilteredInput.settle (i : FilteredInput) : FilteredInput := .at i.pin

/-- The inputs after a reset: the pins stay as they are, and the DIN settings take their defaults (R57). -/
def FrontEnd.afterReset (f : FrontEnd) : FrontEnd :=
  ⟨tabulate12 fun p => f.count[p].settle, tabulate8 fun n => ⟨f.din[n].input.settle, 2#2, false⟩, 0#12⟩

def SafetyInputs.afterReset (i : SafetyInputs) : SafetyInputs :=
  ⟨⟨i.tripIn.input.settle, false⟩, tabulate3 fun b => ⟨i.ovl[b].input.settle, false⟩, ⟨i.supplyOk.input.settle, false⟩⟩

/-- A transaction in progress is aborted: what remains of it is not ready (R6, R187). -/
def Transaction.abort (t : Transaction) : Transaction := { t with active := false, slot := none }

/-- What MISO carries for the rest of a byte or word slot in which the transaction is aborted: 0 (R6; log
entry 29). -/
def Miso.silenced : Miso → Miso
  | .highImpedance => .highImpedance
  | .byte _ => .byte 0#8
  | .word _ => .word 0#32

/-- Every piece of state takes its power-on value (R187, R190), at the start of the hold (log entry 13).
What belongs to the surroundings stays: the pins, the supply, RST_N and CS_N. -/
def State.powerOnValues (s : State) (power : Power) : State :=
  { State.reset with
    pending := s.pending
    power := power
    port := { HostPort.reset with
      transaction := s.port.transaction.map Transaction.abort, miso := s.port.miso.silenced }
    inputs := s.inputs.afterReset
    safety := s.safety.afterReset }

/-- The filtered level of every input is taken from its pin (R57). -/
def FrontEnd.settle (f : FrontEnd) : FrontEnd :=
  ⟨tabulate12 fun p => f.count[p].settle, tabulate8 fun n => { f.din[n] with input := f.din[n].input.settle }, f.restarted⟩

/-- A safety input when initialisation ends: found at its active level, it owes an assertion to the first
instant (R161). -/
def SafetyInput.settle (i : SafetyInput) (activeLevel : Bool) : SafetyInput :=
  ⟨i.input.settle, i.input.pin == activeLevel⟩

/-- TRIP_IN under the present polarity, OVLb active HIGH, SUPPLY_OK active LOW (R161). -/
def SafetyInputs.settle (i : SafetyInputs) (tripInActive : Bool) : SafetyInputs :=
  ⟨i.tripIn.settle tripInActive, tabulate3 fun b => i.ovl[b].settle true, i.supplyOk.settle false⟩

/-- POWER_ON_RESET: the supply reaches its operating level (R187). -/
def execPowerOnReset (s : State) : Host.Outcome State Fault Refusal :=
  .next (s.powerOnValues ⟨true, s.power.rstnLow, false, .power⟩)

/-- RST_N_RESET: RST_N is driven low (R187). -/
def execRstnReset (s : State) : Host.Outcome State Fault Refusal :=
  .next (s.powerOnValues ⟨s.power.vddGood, true, false, .pin⟩)

/-- The end of an RST_N reset: of two resets, the cause is the one that ended last (R35). -/
def Power.releaseRstn (p : Power) : Power :=
  if p.rstnLow then { p with rstnLow := false, cause := .pin } else p

/-- RST_N_RELEASE: RST_N is driven high; the hold ends when the supply is good too (R187). -/
def execRstnRelease (s : State) : Host.Outcome State Fault Refusal :=
  .next (s.withPower s.power.releaseRstn)

/-- VDD_LOSS: the supply falls below its level, so the part is held in reset (R187). -/
def execVddLoss (s : State) : Host.Outcome State Fault Refusal :=
  .next (s.powerOnValues ⟨false, s.power.rstnLow, false, s.power.cause⟩)

/-- INITIALISATION_COMPLETE: the filtered levels are taken from the pins and ready becomes 1 (R6, R57, R187). -/
def execInitialisationComplete (s : State) : Host.Outcome State Fault Refusal :=
  .next (if s.initialising then
      ((s.withInputs s.inputs.settle).withSafety (s.safety.settle s.trip.config.tripInActiveHigh)).withPower
        { s.power with ready := true }
    else s)

end Sys2Proof.Machine
end

