-- ==== Sys2Proof/Machine/General.lean ====
section
/-! DEFINITION. The commands of Chapter 2: a message of an unassigned kind, PING, IDENTIFY and READ_STATUS. -/

namespace Sys2Proof.Machine

/-- UNKNOWN_KIND: a message whose kind no command has is answered and has no other effect (R20, R21 step 1). -/
def execUnknownKind (s : State) : Host.Outcome State Fault Refusal :=
  .next (match s.nextMessage with
    | some (m, rest) =>
      if headKind m.head ∈ assignedKinds then s else (s.takeMessage rest).admitReply m (.refuse .unknownKind)
    | none => s)

/-- PING: any body length, the body echoed (R34). -/
def pingForm : CommandForm := ⟨0x01#8, none, .device, 0#9, none, []⟩

def execPing (s : State) : Host.Outcome State Fault Refusal :=
  .next (s.command pingForm fun m t => (t, .done m.body))

def identifyForm : CommandForm := .device 0x02#8 0

/-- The body of the IDENTIFY reply (R35): 6 channels, 12 lines, 8 discrete inputs. -/
def State.identifyBody (s : State) : List Word :=
  [identWord, place 0 s.power.cause.code ||| placeNat 8 6 ||| placeNat 16 12 ||| placeNat 24 8]

/-- IDENTIFY (R35). -/
def execIdentify (s : State) : Host.Outcome State Fault Refusal :=
  .next (s.command identifyForm fun _ t => answer State.identifyBody t)

def readStatusForm : CommandForm := .device 0x03#8 0

/-- The word that holds a code for each channel, width bits apiece, channel 0 lowest. -/
def placeEach {n : Nat} (lo width : Nat) : List (BitVec n) → Word
  | [] => 0#32
  | x :: rest => place lo x ||| placeEach (lo + width) width rest

/-- The body of the READ_STATUS reply (R36). -/
def State.readStatusBody (s : State) : List Word :=
  [placeEach 0 4 (channelNumbers.map fun k => (s.chan k).state.code)
     ||| placeFlags 24 (channelNumbers.map fun k => (s.chan k).commitPending),
   place 0 s.trip.permit.code ||| place 2 s.sealLevel ||| placeNat 4 s.ledger.records.length ||| placeFlag 9 s.ledger.lost
     ||| placeFlags 12 (bankNumbers.map fun b => s.matrix.shut[b]) ||| placeFlag 15 s.supplyLost,
   s.out.lostWord,
   place 0 s.out.ordinal ||| place 16 s.out.sequence ||| placeNat 24 s.out.noticeCount]

/-- READ_STATUS (R36). -/
def execReadStatus (s : State) : Host.Outcome State Fault Refusal :=
  .next (s.command readStatusForm fun _ t => answer State.readStatusBody t)

end Sys2Proof.Machine
end

