-- ==== Sys2Proof/Machine/Inputs.lean ====
section
/-! DEFINITION. SET_INPUTS and READ_INPUTS, and the changes of the input pins (Chapter 3, R161). -/

namespace Sys2Proof.Machine

/-! ### SET_INPUTS (R55) -/

def setInputsForm : CommandForm := (CommandForm.device 0x18#8 1).frozenFrom 3

/-- A DIN takes its filter code and invert flag; a candidate restarts when the code changes (R48). -/
def DiscreteInput.configure (d : DiscreteInput) (code : BitVec 2) (invert : Bool) : DiscreteInput :=
  ⟨if code = d.code then d.input else d.input.restart, code, invert⟩

def FrontEnd.configureDin (w : Word) (f : FrontEnd) (n : Fin 8) : FrontEnd :=
  { f with din := f.din.set n (f.din[n].configure (field w (2 * n.val) 2) (bit w (16 + n.val))) }

/-- Every held value and gate level is recomputed without an edge (R53). -/
def State.recompute (s : State) (k : Fin 6) : State := s.modChan k fun c => c.evaluate s.inputs c.active.stall

def State.recomputeAll (s : State) : State := channelNumbers.foldl State.recompute s

def State.setInputs (m : Message) (s : State) : State × Reply :=
  if field (m.word 0) 24 8 ≠ 0#8 then refuse .badValue s
  else completed (s.withInputs (dinNumbers.foldl (FrontEnd.configureDin (m.word 0)) s.inputs)).recomputeAll

/-- SET_INPUTS (R55). -/
def execSetInputs (s : State) : Host.Outcome State Fault Refusal := .next (s.command setInputsForm State.setInputs)

/-! ### READ_INPUTS (R56) -/

def readInputsForm : CommandForm := .device 0x19#8 0

/-- The held values of a channel: gate, start, quench, restart, resync. -/
def Channel.heldFlags (c : Channel) : List Bool := [c.gateOpen, c.heldStart, c.heldQuench, c.heldRestart, c.heldResync]

def State.readInputsBody (s : State) : List Word :=
  [placeFlags 0 (dinNumbers.map fun n => s.inputs.din[n].input.filtered)
     ||| placeFlags 8 (dinNumbers.map fun n => s.inputs.dinLevel n),
   placeFlags 0 (countPinNumbers.map fun p => s.inputs.count[p].filtered),
   placeFlags 0 (channelNumbers.flatMap fun k => (s.chan k).heldFlags)]

/-- READ_INPUTS (R56). -/
def execReadInputs (s : State) : Host.Outcome State Fault Refusal :=
  .next (s.command readInputsForm fun _ t => answer State.readInputsBody t)

/-! ### Changes of the pins (R38, R48, R161) -/

/-- COUNT_INPUT_CHANGE (R38). -/
def execCountInputChange (p : Fin 12) (level : Bool) (s : State) : Host.Outcome State Fault Refusal :=
  .next (s.setCountPin p ((s.countPin p).change s.power.ready level))

/-- DIN_CHANGE (R48). -/
def execDinChange (n : Fin 8) (level : Bool) (s : State) : Host.Outcome State Fault Refusal :=
  .next (s.setDinPin n { s.dinPin n with input := (s.dinPin n).input.change s.power.ready level })

def SafetyInput.change (i : SafetyInput) (ready level : Bool) : SafetyInput :=
  { i with input := i.input.change ready level }

/-- SAFETY_INPUT_CHANGE: the pin of a safety input takes a level (R161). -/
def execSafetyInputChange (pin : SafetyPin) (level : Bool) (s : State) : Host.Outcome State Fault Refusal :=
  .next (match pin with
    | .tripIn => s.withSafety { s.safety with tripIn := s.safety.tripIn.change s.power.ready level }
    | .ovl b => s.withSafety { s.safety with ovl := s.safety.ovl.set b (s.safety.ovl[b].change s.power.ready level) }
    | .supplyOk => s.withSafety { s.safety with supplyOk := s.safety.supplyOk.change s.power.ready level })

end Sys2Proof.Machine
end

