-- ==== Sys2Proof/Machine/Staging.lean ====
section
/-! DEFINITION. The staging commands of Chapter 4, READ_CONFIG and COMMIT with its checks, its copies, its
halts and the lending of a SPAN partner. -/

namespace Sys2Proof.Machine

/-! ### Staging (R61 to R65) -/

/-- A staging command: refused while the channel is commit-pending, then by its field checks (R61). -/
def State.stage (s : State) (k : Fin 6) (write : ChannelConfig → Option ChannelConfig) : State × Reply :=
  if (s.chan k).commitPending then refuse .wrongState s
  else match write (s.chan k).staged with
    | some c => completed (s.modChan k ({ · with staged := c }))
    | none => refuse .badValue s

def stageModeForm : CommandForm := .channelled 0x20#8 1

/-- STAGE_MODE (R62). -/
def execStageMode (s : State) : Host.Outcome State Fault Refusal :=
  .next (s.command stageModeForm fun m t => t.stage m.channelNumber (withModeWord (m.word 0)))

def stageTargetsForm : CommandForm := .channelled 0x21#8 2

/-- STAGE_TARGETS (R63). -/
def execStageTargets (s : State) : Host.Outcome State Fault Refusal :=
  .next (s.command stageTargetsForm fun m t => t.stage m.channelNumber (withTargetsWords (m.word 0) (m.word 1)))

def stageTermsForm : CommandForm := .channelled 0x22#8 2

/-- STAGE_TERMS (R64). -/
def execStageTerms (s : State) : Host.Outcome State Fault Refusal :=
  .next (s.command stageTermsForm fun m t => t.stage m.channelNumber (withTermsWords (m.word 0) (m.word 1)))

def stageGuardForm : CommandForm := .channelled 0x23#8 2

/-- STAGE_GUARD (R65). -/
def execStageGuard (s : State) : Host.Outcome State Fault Refusal :=
  .next (s.command stageGuardForm fun m t => t.stage m.channelNumber (withGuardWords (m.word 0) (m.word 1)))

/-! ### READ_CONFIG (R66) -/

def readConfigForm : CommandForm := (CommandForm.channelled 0x25#8 0).withModifier 1#9

/-- The set that bit 0 of a modifier selects: 0 staged, 1 active (R66, R110). -/
def Channel.selectedSet (c : Channel) (m : Message) : ChannelConfig :=
  if (headModifier m.head).getLsbD 0 then c.active else c.staged

def Channel.readConfigBody (c : Channel) (x : ChannelConfig) : List Word :=
  (modeWord x ||| placeNat 24 x.marks.length ||| placeFlag 30 (c.state == .lent) ||| placeFlag 31 c.commitPending)
    :: targetsWords x ++ termsWords x ++ guardWords x

/-- READ_CONFIG (R66). -/
def execReadConfig (s : State) : Host.Outcome State Fault Refusal :=
  .next (s.command readConfigForm fun m t =>
    answer (fun u => (u.chan m.channelNumber).readConfigBody ((u.chan m.channelNumber).selectedSet m)) t)

/-! ### Validation (R68, R69, R112, R113, R114) -/

/-- The line check of R114 for a mark of channel k. -/
def State.markLineTaken (s : State) (k : Fin 6) (m : Mark) : Bool :=
  match m.line with
  | some n => decide ((s.line n).owner ≠ .channel k) || decide (s.pairing n = .pairOdd)
  | none => false

/-- A PULSE of width 0 (R112 step 4, R113 step 2). -/
def Mark.emptyPulse (m : Mark) : Bool := decide (m.action = .pulse) && decide (m.width = 0#16)

/-- Steps 1 to 4 of R112 for a record after `previous`. -/
def ChannelConfig.countingMarkBad (c : ChannelConfig) (previous : Option Mark) (m : Mark) : Bool :=
  decide (c.position m < 1) || decide (c.finalValue < c.position m) || decide (m.crossing = .falling)
    || (decide (c.order = .sequential) && previous.any fun q => decide (c.position m < c.position q))
    || m.emptyPulse

/-- Steps 1 and 2 of R113. -/
def Mark.paceBad (m : Mark) : Bool := decide (m.target.toInt < 1) || m.emptyPulse

def ChannelConfig.markBad (c : ChannelConfig) (previous : Option Mark) (m : Mark) : Bool :=
  match c.mode with
  | .tally | .span | .loop => c.countingMarkBad previous m
  | .pace => m.paceBad
  | .off => false

/-- The mark checks, record by record from index i, stopping at the first failure (section 6.4). -/
def State.markFailure (s : State) (k : Fin 6) (c : ChannelConfig) (i : Nat) (previous : Option Mark) :
    List Mark → Option (ResultCode × Nat)
  | [] => none
  | m :: rest =>
    if c.markBad previous m then some (.badValue, i)
    else if s.markLineTaken k m then some (.lineTaken, i)
    else s.markFailure k c (i + 1) (some m) rest

/-- The mode constraints of R68 step 5 are broken. -/
def ChannelConfig.modeBroken (c : ChannelConfig) (k : Fin 6) : Bool :=
  (match c.mode with
    | .off => !c.marks.isEmpty
    | .span => !isEven k || decide (c.decode ≠ .step)
    | .loop => decide (c.final.toNat < 2)
    | .pace => decide (c.order ≠ .all) || decide (c.reference ≠ .absolute) || decide (c.stall ≠ 0#8)
    | .tally => false)
    || (decide (c.mode ≠ .loop) && !c.resyncTerm.refs.isEmpty)

/-- The SPAN pairing checks of R69 for even channel k, in a cohort. -/
def State.pairingFailure (s : State) (cohort : Word) (k : Fin 6) : Option ResultCode :=
  let p := s.chan (partner k)
  if (s.chan k).staged.mode = .span ∧ isEven k = true then
    if p.state ≠ .off ∧ ¬(p.state = .lent ∧ (s.chan k).active.mode = .span) then some .wrongState
    else if bit cohort (partner k).val = true ∧ p.staged.mode ≠ .off then some .badValue
    else none
  else none

/-- The first failing check on channel k and the mark it names, 15 for none (R67, R68). -/
def State.commitFailure (s : State) (cohort : Word) (k : Fin 6) : Option (ResultCode × Nat) :=
  let c := s.chan k
  if c.state = .lent ∨ c.commitPending = true then some (.wrongState, 15)
  else if c.state = .faulted ∧ c.staged.mode = .off ∧ c.active.mode ≠ .off then some (.wrongState, 15)
  else match s.pairingFailure cohort k with
    | some code => some (code, 15)
    | none =>
      if c.staged.modeBroken k then some (.badValue, 15)
      else s.markFailure k c.staged 0 none c.staged.marks

/-- The refusal of a COMMIT by the lowest-numbered failing channel of a list (R67). -/
def State.cohortFailure (s : State) (cohort : Word) : List (Fin 6) → Option Reply
  | [] => none
  | k :: rest =>
    match s.commitFailure cohort k with
    | some (code, mark) => some ⟨code, [placeNat 0 k.val ||| placeNat 8 mark]⟩
    | none => s.cohortFailure cohort rest

/-! ### Application (R70 to R73, R76) -/

/-- What COMMIT does to a channel (R70). -/
inductive Disposition where
  | untouched | copied | halted | left
deriving DecidableEq, Repr

/-- Two sets differ in a structural field (R59). -/
def ChannelConfig.differsStructurally (a b : ChannelConfig) : Bool :=
  !(decide (a.mode = b.mode) && decide (a.direction = b.direction) && decide (a.decode = b.decode)
    && decide (a.edge = b.edge) && decide (a.reference = b.reference) && decide (a.order = b.order))

/-- The table of R70. -/
def Channel.disposition (c : Channel) : Disposition :=
  if c.staged = c.active then .untouched
  else match c.state with
    | .off | .idle | .complete | .faulted => .copied
    | .armed => if c.staged.differsStructurally c.active then .halted else .copied
    | .running | .quenched => if c.staged.differsStructurally c.active then .halted else .left
    | .lent => .untouched

/-- The state after an immediate copy, from the state before and the new mode (R71). -/
def stateAfterCopy (state : ChannelState) (mode : Mode) : ChannelState :=
  match state with
  | .off => if mode = .off then .off else .idle
  | .idle | .complete => if mode = .off then .off else state
  | .armed | .running | .quenched | .faulted | .lent => state

/-- In ARMED, V takes the new load value and every mark is armed; otherwise the new list is disarmed
(R71, R116). -/
def Channel.settleCopy (c : Channel) : Channel :=
  if c.state = .armed then { c with value := c.active.loadValue, arming := c.active.armAll }
  else { c with arming := Arming.disarmed c.active.order }

/-- An immediate copy (R71). On entering OFF the owned lines are released. -/
def State.immediateCopy (s : State) (k : Fin 6) : State :=
  let t := (s.copyStaged k).modChan k fun c => { c with state := stateAfterCopy c.state c.active.mode }
  let u := if (s.chan k).state ≠ .off ∧ (t.chan k).state = .off then t.releaseLines k else t
  u.modChan k Channel.settleCopy

/-- A halt by the commit (R72). The run is over, so the channel is IDLE or OFF while the set is copied. -/
def State.haltedCopy (s : State) (k : Fin 6) : State :=
  let t := (s.endRun k).modChan k fun c => { c with state := if c.staged.mode = .off then .off else .idle }
  (t.copyStaged k).modChan k Channel.settleCopy

/-- The application of COMMIT to a channel, by its disposition. -/
def State.applyCommit (s : State) (k : Fin 6) : State :=
  match (s.chan k).disposition with
  | .untouched => s
  | .copied => s.immediateCopy k
  | .halted => s.haltedCopy k
  | .left => s.modChan k ({ · with commitPending := true })

/-- The lending or release of the partner of a channel whose mode a commit has changed (R76): the odd
channel is LENT exactly while its even partner is in SPAN. It is settled after the copies of the whole
cohort, so that the lending follows the partner's own copy (log entry 17). -/
def State.settlePartner (s : State) (k : Fin 6) : State :=
  let even := if isEven k then k else partner k
  let odd := partner even
  if (s.chan even).active.mode = .span then s.modChan odd ({ · with state := .lent })
  else if (s.chan odd).state = .lent then s.modChan odd ({ · with state := .off })
  else s

def commitForm : CommandForm := { CommandForm.device 0x24#8 1 with refusalBody := [0xF0F#32] }

/-- The body of the DONE reply (R67). -/
def State.commitReport (s : State) (cohort : Word) : Word :=
  maskOf cohort (fun k => (s.chan k).disposition == .copied || (s.chan k).disposition == .halted)
    ||| maskOf cohort (fun k => (s.chan k).disposition == .halted) <<< 8
    ||| maskOf cohort (fun k => (s.chan k).disposition == .left) <<< 16

def State.commit (m : Message) (s : State) : State × Reply :=
  let w := m.word 0
  if maskValid w = false then (s, ⟨.badValue, [0xF0F#32]⟩)
  else match s.cohortFailure w (namedChannels w) with
    | some reply => (s, reply)
    | none =>
      ((namedChannels w).foldl State.settlePartner ((namedChannels w).foldl State.applyCommit s), .done [s.commitReport w])

/-- COMMIT (R67 to R76). -/
def execCommit (s : State) : Host.Outcome State Fault Refusal := .next (s.command commitForm State.commit)

end Sys2Proof.Machine
end

