-- ==== Sys2Proof/Machine/Marks.lean ====
section
/-! DEFINITION. STAGE_MARK, CLEAR_MARKS and READ_MARKS (Chapter 6). The checks of marks at COMMIT are in
Staging.lean, their firing is in Runs.lean. -/

namespace Sys2Proof.Machine

def stageMarkForm : CommandForm := (CommandForm.channelled 0x28#8 2).withModifier 7#9

/-- The list with a record at index i replaced, or appended when i is its length (R108); none beyond. -/
def putMark (i : Nat) (m : Mark) (marks : List Mark) : Option (List Mark) :=
  if i < marks.length then some (marks.set i m)
  else if i = marks.length then some (marks ++ [m])
  else none

/-- The staged set with the record of a STAGE_MARK body at index i. -/
def withMarkWords (i : Nat) (w0 w1 : Word) (c : ChannelConfig) : Option ChannelConfig :=
  match decodeMark w0 w1 with
  | some m => (putMark i m c.marks).map fun marks => { c with marks := marks }
  | none => none

/-- STAGE_MARK (R108). -/
def execStageMark (s : State) : Host.Outcome State Fault Refusal :=
  .next (s.command stageMarkForm fun m t =>
    t.stage m.channelNumber (withMarkWords (headModifier m.head).toNat (m.word 0) (m.word 1)))

def clearMarksForm : CommandForm := .channelled 0x29#8 0

/-- CLEAR_MARKS (R109). -/
def execClearMarks (s : State) : Host.Outcome State Fault Refusal :=
  .next (s.command clearMarksForm fun m t => t.stage m.channelNumber fun c => some { c with marks := [] })

def readMarksForm : CommandForm := (CommandForm.channelled 0x2A#8 0).withModifier 0xF#9

/-- Bits 3..1 of the modifier: the first index (R110). -/
def Message.firstMark (m : Message) : Nat := ((headModifier m.head).extractLsb' 1 3).toNat

/-- The body of the READ_MARKS reply: up to three records from index f on, with the armed marks when the
active set is selected (R110). -/
def Channel.readMarksBody (c : Channel) (m : Message) : List Word :=
  let marks := (c.selectedSet m).marks
  let found := (marks.drop m.firstMark).take 3
  (placeNat 0 marks.length ||| placeNat 4 m.firstMark ||| placeNat 8 found.length
      ||| (if (headModifier m.head).getLsbD 0 then place 16 c.arming.bits else 0#32))
    :: found.flatMap Mark.words

/-- READ_MARKS (R110), refused for a LENT channel (R76). -/
def execReadMarks (s : State) : Host.Outcome State Fault Refusal :=
  .next (s.command readMarksForm fun m t =>
    if (t.chan m.channelNumber).state = .lent then refuse .wrongState t
    else answer (fun u => (u.chan m.channelNumber).readMarksBody m) t)

end Sys2Proof.Machine
end

