-- ==== Sys2Proof/Machine/RunCommands.lean ====
section
/-! DEFINITION. START, RESTART, QUENCH, HALT and READ_CHANNEL (Chapter 5). -/

namespace Sys2Proof.Machine

/-! ### START (R81, R82) -/

def startForm : CommandForm := .device 0x30#8 1

/-- The ledger holds a record whose source is channel k (R81, R100). -/
def State.hasChannelRecord (s : State) (k : Fin 6) : Bool := s.ledger.records.any (·.source == .channel k)

def ChannelState.startable : ChannelState → Bool
  | .idle | .complete => true
  | .off | .armed | .running | .quenched | .faulted | .lent => false

/-- START fails on a channel in the wrong state, or with a ledger record (R81). -/
def State.startFails (s : State) (k : Fin 6) : Bool := !(s.chan k).state.startable || s.hasChannelRecord k

/-- The load and the clearing of an accepted START (R82, R116, R131). -/
def Channel.load (c : Channel) : Channel :=
  { c with
    value := c.active.loadValue
    cycleIndex := 0#16
    arming := c.active.armAll
    captures := []
    overcapture := 0#8
    accumulator := 0#32
    ring := []
    windowCount := 0#16
    lastWindowOrdinal := 0#16
    phaseErrors := 0#8
    resyncPending := false }

/-- An accepted START of a channel (R82). -/
def Channel.start (c : Channel) : Channel :=
  if c.active.startTerm.refs.isEmpty then c.load.beginRun else { c.load with state := .armed }

def State.startChannel (s : State) (k : Fin 6) : State := s.modChan k Channel.start

def State.start (m : Message) (s : State) : State × Reply :=
  let w := m.word 0
  if maskValid w = false then refuse .badValue s
  else if maskOf w s.startFails = 0#32 then completed ((namedChannels w).foldl State.startChannel s)
  else (s, ⟨.wrongState, [maskOf w s.startFails ||| maskOf w s.hasChannelRecord <<< 8]⟩)

/-- START (R81, R82). -/
def execStart (s : State) : Host.Outcome State Fault Refusal := .next (s.command startForm State.start)

/-! ### RESTART, QUENCH and HALT (R93, R94, R96) -/

def restartForm : CommandForm := .device 0x31#8 1

def State.notQuenched (s : State) (k : Fin 6) : Bool := decide ((s.chan k).state ≠ .quenched)

def State.restart (m : Message) (s : State) : State × Reply :=
  let w := m.word 0
  if maskValid w = false then refuse .badValue s
  else if maskOf w s.notQuenched = 0#32 then completed ((namedChannels w).foldl State.restartChannel s)
  else (s, ⟨.wrongState, [maskOf w s.notQuenched]⟩)

/-- RESTART (R94). -/
def execRestart (s : State) : Host.Outcome State Fault Refusal := .next (s.command restartForm State.restart)

def quenchForm : CommandForm := .device 0x32#8 1

/-- QUENCH is legal in RUNNING only (R93). -/
def State.quenchLegal (s : State) (k : Fin 6) : Bool := decide ((s.chan k).state = .running)

/-- QUENCH (R93). -/
def execQuench (s : State) : Host.Outcome State Fault Refusal :=
  .next (s.command quenchForm (perChannel State.quenchLegal State.enterQuenched))

def haltForm : CommandForm := .device 0x33#8 1

/-- The states in which HALT is legal (R96). -/
def ChannelState.haltable : ChannelState → Bool
  | .armed | .running | .quenched | .complete | .faulted => true
  | .off | .idle | .lent => false

def State.haltLegal (s : State) (k : Fin 6) : Bool := (s.chan k).state.haltable

/-- HALT of a channel (R96). -/
def State.haltChannel (s : State) (k : Fin 6) : State :=
  (((s.endRun k).modChan k ({ · with state := .idle })).leaveFaulted k (s.chan k).faultedBy).pendingCopy k

/-- HALT (R96). -/
def execHalt (s : State) : Host.Outcome State Fault Refusal :=
  .next (s.command haltForm (perChannel State.haltLegal State.haltChannel))

/-! ### READ_CHANNEL (R101) -/

def readChannelForm : CommandForm := .channelled 0x34#8 0

/-- A progress as a signed word; outside 32 bits the manual states no result (log entry 10). -/
def progressWord (p : Int) : Word := if inRange p then BitVec.ofInt 32 p else Config.progressOutOfRange p

/-- The body of the READ_CHANNEL reply (R101). While the channel is frozen its stall timer does not run, and
what remains is kept. -/
def State.readChannelBody (s : State) (k : Fin 6) : List Word :=
  let c := s.chan k
  [place 0 c.state.code ||| placeFlag 4 c.commitPending ||| placeFlag 5 c.resyncPending ||| placeFlag 6 c.gateOpen
     ||| placeFlag 7 (c.stallLeft.isSome && !s.frozen k) ||| place 8 c.phaseErrors ||| place 16 c.cycleIndex,
   c.value,
   progressWord (c.active.progress c.value),
   place 0 c.arming.bits ||| placeNat 16 (ceilDiv (c.stallLeft.getD 0) tenMilliseconds)]

/-- READ_CHANNEL (R101). -/
def execReadChannel (s : State) : Host.Outcome State Fault Refusal :=
  .next (s.command readChannelForm fun m t => answer (·.readChannelBody m.channelNumber) t)

end Sys2Proof.Machine
end

