-- ==== Sys2Proof/Machine/Captures.lean ====
section
/-! DEFINITION. READ_CAPTURES and READ_RATE (Chapter 7). Capture attempts and window ends are in Runs.lean. -/

namespace Sys2Proof.Machine

def readCapturesForm : CommandForm := .channelled 0x38#8 0

/-- The two words of a capture record (R129). -/
def CaptureRecord.words (r : CaptureRecord) : List Word :=
  [r.value, place 0 r.ordinal ||| place 16 r.cause ||| place 20 r.index]

/-- The body of the READ_CAPTURES reply (R129). -/
def Channel.readCapturesBody (c : Channel) : List Word :=
  (placeNat 0 (c.captures.take 3).length ||| placeNat 4 (c.captures.drop 3).length ||| place 8 c.overcapture)
    :: (c.captures.take 3).flatMap CaptureRecord.words

/-- The channel after READ_CAPTURES: the records returned are removed, the overcapture count cleared. -/
def Channel.takeCaptures (c : Channel) : Channel := { c with captures := c.captures.drop 3, overcapture := 0#8 }

/-- READ_CAPTURES (R129), refused for a LENT channel (R76). -/
def execReadCaptures (s : State) : Host.Outcome State Fault Refusal :=
  .next (s.command readCapturesForm fun m t =>
    if (t.chan m.channelNumber).state = .lent then refuse .wrongState t
    else (t.modChan m.channelNumber Channel.takeCaptures, .done (t.chan m.channelNumber).readCapturesBody))

def readRateForm : CommandForm := .channelled 0x39#8 0

/-- The length of the window in progress, or the active window when there is none (R135). -/
def Channel.windowLength (c : Channel) : WindowLength :=
  match c.windowLeft with
  | some w => w.length
  | none => c.active.window

def Channel.windowRemaining (c : Channel) : Nat :=
  match c.windowLeft with
  | some w => ceilDiv w.left millisecond
  | none => 0

/-- The body of the READ_RATE reply (R135). DESIGN CHOICE (log entry 28): a frozen channel with no window in
progress reads 0 in bit 7, as the table has it: no window is held. -/
def State.readRateBody (s : State) (k : Fin 6) : List Word :=
  let c := s.chan k
  let running := c.windowLeft.isSome
  [placeNat 0 c.ring.length ||| place 4 c.windowLength.code ||| placeFlag 6 (running && !s.frozen k)
     ||| placeFlag 7 (running && s.frozen k) ||| place 16 c.windowCount,
   c.accumulator,
   c.ring.getD 0 0#32, c.ring.getD 1 0#32, c.ring.getD 2 0#32, c.ring.getD 3 0#32,
   (if c.windowCount = 0#16 then 0#32 else place 0 c.lastWindowOrdinal) ||| placeNat 16 c.windowRemaining]

/-- READ_RATE (R135), refused for a LENT channel (R76). -/
def execReadRate (s : State) : Host.Outcome State Fault Refusal :=
  .next (s.command readRateForm fun m t =>
    if (t.chan m.channelNumber).state = .lent then refuse .wrongState t
    else answer (·.readRateBody m.channelNumber) t)

end Sys2Proof.Machine
end

