-- ==== Sys2Proof/Machine/LineCommands.lean ====
section
/-! DEFINITION. BIND_LINE, UNBIND_LINE, SHAPE_LINE, SHAPE_PAIR, DRIVE_LINES and READ_LINES (Chapter 8). -/

namespace Sys2Proof.Machine

/-! ### Shared -/

/-- The owner is a channel in ARMED, RUNNING or QUENCHED (R153, R154, R155). -/
def State.ownerLive (s : State) : Owner → Bool
  | .channel k => (s.chan k).state.live
  | .nobody | .host => false

/-- The owner is a channel whose active mark list names a line (R153, R155). -/
def State.ownerMarks (s : State) (o : Owner) (n : Fin 12) : Bool :=
  match o with
  | .channel k => (s.chan k).active.marks.any (·.line == some n)
  | .nobody | .host => false

/-- A line and, when it is the even line of a pair, its odd line take a new owner (R152, R153). -/
def State.setOwner (s : State) (n : Fin 12) (o : Owner) : State :=
  let t := s.setLine n { s.line n with owner := o }
  if s.pairing n = .pairEven then
    t.setLine (oddLine (pairOfLine n)) { t.line (oddLine (pairOfLine n)) with owner := o }
  else t

/-- A line becomes INACTIVE with its pulse timer cancelled, outside any line action. -/
def State.clearLine (s : State) (n : Fin 12) : State :=
  s.setLine n { s.line n with active := false, pulseLeft := none }

/-- The gap of a pair is cancelled and its phase is SETTLED. -/
def State.cancelGap (s : State) (j : Fin 6) : State := s.setPair j { s.pair j with gapLeft := none }

/-- Every bit outside a mask is 0. -/
def onlyBits (w mask : Word) : Bool := w &&& ~~~mask == 0#32

/-! ### BIND_LINE (R152) -/

def bindLineForm : CommandForm := (CommandForm.device 0x40#8 1).frozenFrom 3

def State.ownerLent (s : State) : Owner → Bool
  | .channel k => (s.chan k).state == .lent
  | .nobody | .host => false

/-- Checks 2 to 4 of R152 and the binding. -/
def State.bindTo (s : State) (n : Fin 12) (o : Owner) : State × Reply :=
  if s.pairing n = .pairOdd then refuse .wrongState s
  else if (s.line n).owner ≠ .nobody ∧ (s.line n).owner ≠ o then refuse .lineTaken s
  else if s.ownerLent o then refuse .wrongState s
  else if (s.line n).owner = o then completed s
  else completed (s.setOwner n o)

def State.bindLine (m : Message) (s : State) : State × Reply :=
  match lineNumber (field (m.word 0) 0 4).toNat, decodeOwner (field (m.word 0) 8 4) with
  | some n, some o => if onlyBits (m.word 0) 0xF0F#32 then s.bindTo n o else refuse .badValue s
  | _, _ => refuse .badValue s

/-- BIND_LINE (R152). -/
def execBindLine (s : State) : Host.Outcome State Fault Refusal := .next (s.command bindLineForm State.bindLine)

/-! ### UNBIND_LINE (R153) -/

def unbindLineForm : CommandForm := (CommandForm.device 0x41#8 1).frozenFrom 3

/-- The line loses its owner, becomes INACTIVE, and a pair loses its gap (R153). -/
def State.unbind (s : State) (n : Fin 12) : State :=
  let t := (s.setOwner n .nobody).clearLine n
  if s.pairing n = .pairEven then t.cancelGap (pairOfLine n) else t

/-- Checks 2 to 4 of R153 and the unbinding. -/
def State.unbindFrom (s : State) (n : Fin 12) : State × Reply :=
  if s.pairing n = .pairOdd then refuse .wrongState s
  else if s.ownerLive (s.line n).owner then refuse .wrongState s
  else if s.ownerMarks (s.line n).owner n then refuse .wrongState s
  else if (s.line n).owner = .nobody then completed s
  else completed (s.unbind n)

def State.unbindLine (m : Message) (s : State) : State × Reply :=
  match lineNumber (field (m.word 0) 0 4).toNat with
  | some n => if onlyBits (m.word 0) 0xF#32 then s.unbindFrom n else refuse .badValue s
  | none => refuse .badValue s

/-- UNBIND_LINE (R153). -/
def execUnbindLine (s : State) : Host.Outcome State Fault Refusal := .next (s.command unbindLineForm State.unbindLine)

/-! ### SHAPE_LINE (R154) -/

def shapeLineForm : CommandForm := (CommandForm.device 0x42#8 1).frozenFrom 2

/-- The safe level of a line equals its own active pin level (R145). -/
def Line.safeActive (l : Line) : Bool := l.safe == l.activeLevel

def Line.shaped (l : Line) (inverted : Bool) (safe : PinLevel) : Line := { l with inverted := inverted, safe := safe }

/-- The other line of the pair that a line belongs to. -/
def partnerLine (n : Fin 12) : Fin 12 := if n.val % 2 = 0 then oddLine (pairOfLine n) else evenLine (pairOfLine n)

/-- Checks 2 and 3 of R154 and the new shape. -/
def State.shapeTo (s : State) (n : Fin 12) (inverted : Bool) (safe : PinLevel) : State × Reply :=
  if s.pairing n ≠ .single ∧ ((s.line n).shaped inverted safe).safeActive = true ∧ (s.line (partnerLine n)).safeActive = true then
    refuse .badValue s
  else if s.ownerLive (s.line n).owner then refuse .wrongState s
  else completed (s.setLine n ((s.line n).shaped inverted safe))

def State.shapeLine (m : Message) (s : State) : State × Reply :=
  match lineNumber (field (m.word 0) 0 4).toNat, decodeSafe (field (m.word 0) 8 2) with
  | some n, some safe => if onlyBits (m.word 0) 0x31F#32 then s.shapeTo n (bit (m.word 0) 4) safe else refuse .badValue s
  | _, _ => refuse .badValue s

/-- SHAPE_LINE (R154). -/
def execShapeLine (s : State) : Host.Outcome State Fault Refusal := .next (s.command shapeLineForm State.shapeLine)

/-! ### SHAPE_PAIR (R155) -/

def shapePairForm : CommandForm := (CommandForm.device 0x43#8 1).frozenFrom 2

/-- Pairing two single lines (R155, first row). -/
def State.pairUp (s : State) (j : Fin 6) (gap : Byte) : State :=
  let t := (s.clearLine (oddLine j)).setPair j ⟨true, gap, none⟩
  if t.ownedPair j then t.enterGap j else t

/-- The effect of an accepted SHAPE_PAIR (R155). -/
def State.repair (s : State) (j : Fin 6) (pairing : Bool) (gap : Byte) : State :=
  match pairing, (s.pair j).paired with
  | true, false => s.pairUp j gap
  | true, true => s.setPair j { s.pair j with gap := gap }
  | false, true => s.setPair j { s.pair j with paired := false, gapLeft := none }
  | false, false => s

/-- Checks 2 to 5 of R155 and the effect. -/
def State.shapePairTo (s : State) (j : Fin 6) (pairing : Bool) (gap : Byte) : State × Reply :=
  let even := s.line (evenLine j)
  let odd := s.line (oddLine j)
  if pairing = true ∧ even.safeActive = true ∧ odd.safeActive = true then refuse .badValue s
  else if pairing = true ∧ even.owner ≠ odd.owner then refuse .lineTaken s
  else if s.ownerLive even.owner then refuse .wrongState s
  else if pairing = true ∧ s.ownerMarks even.owner (oddLine j) = true then refuse .wrongState s
  else completed (s.repair j pairing gap)

def State.shapePair (m : Message) (s : State) : State × Reply :=
  match lineNumber (field (m.word 0) 0 4).toNat with
  | some n =>
    if n.val % 2 = 0 ∧ onlyBits (m.word 0) 0xFF1F#32 = true ∧ (bit (m.word 0) 4 = true ↔ field (m.word 0) 8 8 ≠ 0#8) then
      s.shapePairTo (pairOfLine n) (bit (m.word 0) 4) (field (m.word 0) 8 8)
    else refuse .badValue s
  | none => refuse .badValue s

/-- SHAPE_PAIR (R155). -/
def execShapePair (s : State) : Host.Outcome State Fault Refusal := .next (s.command shapePairForm State.shapePair)

/-! ### DRIVE_LINES (R156) -/

def driveLinesForm : CommandForm := .device 0x44#8 1

/-- A line that DRIVE_LINES may name. -/
def State.drivable (s : State) (n : Fin 12) : Bool := ((s.line n).owner == .host) && (s.pairing n != .pairOdd)

/-- SET or CLEAR on a line named in the mask. -/
def State.driveLine (w : Word) (s : State) (n : Fin 12) : State :=
  if bit w n.val then s.lineAction n (if bit w (16 + n.val) then .set else .clear) else s

def State.driveLines (m : Message) (s : State) : State × Reply :=
  let w := m.word 0
  if onlyBits w 0x0FFF0FFF#32 = false ∨ lineNumbers.any (fun n => bit w n.val && !s.drivable n) = true then refuse .badValue s
  else completed (lineNumbers.foldl (State.driveLine w) s)

/-- DRIVE_LINES (R156). -/
def execDriveLines (s : State) : Host.Outcome State Fault Refusal := .next (s.command driveLinesForm State.driveLines)

/-! ### READ_LINES (R157) -/

def readLinesForm : CommandForm := .device 0x45#8 0

/-- The odd line of a pair reads INACTIVE, as it is (R138). The gap of an even line is its pair's. The pins read
their resolved levels (R148). -/
def State.readLinesBody (s : State) : List Word :=
  [placeEach 0 4 ((lineNumbers.take 8).map fun n => (s.line n).owner.code),
   placeEach 0 4 ((lineNumbers.drop 8).map fun n => (s.line n).owner.code)
     ||| placeFlags 16 (lineNumbers.map fun n => (s.line n).active),
   placeEach 0 2 (lineNumbers.map fun n => pinLevelCode (s.resolvedPin n))
     ||| placeFlags 24 (bankNumbers.map fun b => s.matrix.shut[b]) ||| placeFlag 27 s.supplyLost,
   placeFlags 0 (lineNumbers.map fun n => (s.line n).inverted)
     ||| placeFlags 12 (lineNumbers.map fun n => (s.line n).pulseLeft.isSome)
     ||| placeFlags 24 (pairNumbers.map fun j => (s.pair j).paired),
   placeEach 0 2 (lineNumbers.map fun n => safeCode (s.line n).safe)
     ||| placeFlags 24 (pairNumbers.map fun j => (s.pair j).gapLeft.isSome),
   placeEach 0 8 ((pairNumbers.take 4).map fun j => (s.pair j).gap),
   placeEach 0 8 ((pairNumbers.drop 4).map fun j => (s.pair j).gap)]

/-- READ_LINES (R157). -/
def execReadLines (s : State) : Host.Outcome State Fault Refusal :=
  .next (s.command readLinesForm fun _ t => answer State.readLinesBody t)

end Sys2Proof.Machine
end

