-- ==== Sys2Proof/Machine/TripCommands.lean ====
section
/-! DEFINITION. SET_TRIP, TRIP, RESUME and READ_TRIP (Chapter 9). -/

namespace Sys2Proof.Machine

/-! ### SET_TRIP (R172) -/

def setTripForm : CommandForm := (CommandForm.device 0x48#8 2).frozenFrom 1

/-- The watch timer under a new watch: stopped for 0, in full otherwise, but for a host-lost condition, under
which it stays as it is (R172). -/
def TripUnit.restartWatch (t : TripUnit) (c : TripConfig) : Option Nat :=
  if c.watch = 0#8 then none else if t.hostLost then t.watchLeft else c.fullWatch

/-- The TRIP_INPUT record follows the cause under the present polarity (R172, R179). -/
def State.recomputeTripIn (s : State) : State := s.setCondition .tripIn .tripInput s.tripInPresent

/-- An accepted SET_TRIP (R172). -/
def State.configureTrip (s : State) (c : TripConfig) : State :=
  (s.withTrip { s.trip with config := c, watchLeft := s.trip.restartWatch c }).recomputeTripIn

def State.setTrip (m : Message) (s : State) : State × Reply :=
  match decodeTrip (m.word 0) (m.word 1) with
  | some c =>
    if s.trip.permit = .permitted ∧ s.enabledCausesUnder c ≠ 0#32 then (s, ⟨.causePresent, [s.enabledCausesUnder c]⟩)
    else completed (s.configureTrip c)
  | none => refuse .badValue s

/-- SET_TRIP (R172). -/
def execSetTrip (s : State) : Host.Outcome State Fault Refusal := .next (s.command setTripForm State.setTrip)

/-! ### TRIP (R173) and RESUME (R168) -/

def tripForm : CommandForm := .device 0x49#8 0

/-- The SOFT occurrence of TRIP, with its withdrawal (R164, R173). -/
def State.softTrip (s : State) : State := (s.faultOccurrence .soft .softTrip false).withdrawIf true .soft

/-- TRIP (R173). -/
def execTrip (s : State) : Host.Outcome State Fault Refusal :=
  .next (s.command tripForm fun _ t =>
    (t.softTrip, .done [placeFlag 0 (t.trip.permit == .permitted) ||| place 4 t.softTrip.trip.permit.code]))

def resumeForm : CommandForm := .device 0x4A#8 0

def State.resume (s : State) : State × Reply :=
  if s.trip.permit = .permitted then refuse .nothingPending s
  else if s.enabledCauses ≠ 0#32 then (s, ⟨.causePresent, [s.enabledCauses]⟩)
  else completed (s.grant none)

/-- RESUME (R168). -/
def execResume (s : State) : Host.Outcome State Fault Refusal :=
  .next (s.command resumeForm fun _ t => t.resume)

/-! ### READ_TRIP (R174) -/

def readTripForm : CommandForm := .device 0x4B#8 0

/-- Word 3 of READ_TRIP. -/
def lastTripWord : Option LastTrip → Word
  | some t => place 0 t.ordinal ||| place 16 t.source.code ||| place 20 t.source.place
  | none => 0#32

def State.readTripBody (s : State) : List Word :=
  [place 0 s.trip.permit.code ||| placeFlag 2 (channelNumbers.any s.frozen) ||| placeFlag 3 s.trip.watchLeft.isSome
     ||| placeFlag 4 s.trip.hostLost ||| placeNat 8 (ceilDiv (s.trip.watchLeft.getD 0) tenMilliseconds)
     ||| s.presentCauses <<< 16,
   s.enabledCauses ||| placeFlags 16 (channelNumbers.map fun k => s.trip.handed[k]),
   tripWord s.trip.config,
   lastTripWord s.trip.last]

/-- READ_TRIP (R174). -/
def execReadTrip (s : State) : Host.Outcome State Fault Refusal :=
  .next (s.command readTripForm fun _ t => answer State.readTripBody t)

end Sys2Proof.Machine
end

