-- ==== Sys2Proof/Machine/LedgerCommands.lean ====
section
/-! DEFINITION. READ_FAULTS, ACK_FAULT, SEAL and ENGINE_RESET (Chapter 10). -/

namespace Sys2Proof.Machine

/-! ### READ_FAULTS (R184) -/

def readFaultsForm : CommandForm := (CommandForm.device 0x50#8 0).withModifier 0xF#9

/-- The body of the READ_FAULTS reply from index f on. -/
def Ledger.readBody (l : Ledger) (f : Nat) : List Word :=
  (placeNat 0 l.records.length ||| placeFlag 8 l.lost ||| placeNat 16 ((l.records.drop f).take 3).length ||| placeNat 24 f)
    :: ((l.records.drop f).take 3).map LedgerRecord.word

/-- READ_FAULTS (R184). -/
def execReadFaults (s : State) : Host.Outcome State Fault Refusal :=
  .next (s.command readFaultsForm fun m t =>
    (t.withLedger { t.ledger with lost := false }, .done (t.ledger.readBody (headModifier m.head).toNat)))

/-! ### ACK_FAULT (R150, R183) -/

def ackFaultForm : CommandForm := .device 0x51#8 0

/-- The oldest STANDING record. -/
def Ledger.standing (l : Ledger) : Option LedgerRecord := l.records.find? (!·.active)

/-- The ledger without its oldest STANDING record. -/
def Ledger.acknowledge (l : Ledger) : Ledger := { l with records := l.records.eraseP (!·.active) }

/-- The removed record is the OVERLOAD record of bank b. -/
def isOverloadOf (b : Fin 3) : Option LedgerRecord → Bool
  | some r => r.isFor (.bank b) .overload
  | none => false

/-- A shut bank is released when its OVERLOAD record is the one removed, or when its input is released and
the ledger then holds no OVERLOAD record for it (R150, R183). -/
def State.bankReleased (s : State) (removed : Option LedgerRecord) (b : Fin 3) : Bool :=
  s.matrix.shut[b] && (isOverloadOf b removed
    || (!s.safety.ovl[b].input.filtered && !s.ledger.acknowledge.records.any (·.isFor (.bank b) .overload)))

/-- The shut flags after ACK_FAULT. -/
def State.openBanks (s : State) : LineMatrix :=
  { s.matrix with shut := tabulate3 fun b => s.matrix.shut[b] && !s.bankReleased s.ledger.standing b }

def State.ackFault (s : State) : State × Reply :=
  let released := placeFlags 0 (bankNumbers.map (s.bankReleased s.ledger.standing))
  if s.ledger.standing = none ∧ released = 0#32 then refuse .nothingPending s
  else
    ((s.withLedger s.ledger.acknowledge).withMatrix s.openBanks,
     .done [(match s.ledger.standing with | some r => r.word | none => 0#32),
            placeNat 0 s.ledger.acknowledge.records.length ||| released <<< 8])

/-- ACK_FAULT (R183). -/
def execAckFault (s : State) : Host.Outcome State Fault Refusal :=
  .next (s.command ackFaultForm fun _ t => t.ackFault)

/-! ### SEAL (R186) -/

def sealForm : CommandForm := (CommandForm.device 0x52#8 0).withModifier 3#9

def State.raiseSeal (s : State) (level : BitVec 2) : State × Reply :=
  if level.toNat < s.sealLevel.toNat then refuse .sealed s
  else (s.withSeal level, .done [place 0 level])

/-- SEAL (R186). -/
def execSealRaise (s : State) : Host.Outcome State Fault Refusal :=
  .next (s.command sealForm fun m t => t.raiseSeal ((headModifier m.head).extractLsb' 0 2))

/-! ### ENGINE_RESET (R188, R189) -/

def engineResetForm : CommandForm := .device 0x53#8 0

/-- What the seal protects, by its level (R185). -/
def State.keepsTrip (s : State) : Bool := decide (1 ≤ s.sealLevel.toNat)
def State.keepsShapes (s : State) : Bool := decide (2 ≤ s.sealLevel.toNat)
def State.keepsBindings (s : State) : Bool := decide (3 ≤ s.sealLevel.toNat)

/-- A channel's records turn STANDING (R188 step 1). -/
def State.standChannel (s : State) (k : Fin 6) : State :=
  (s.setCondition (.channel k) .stall false).setCondition (.channel k) .overflow false

/-- Step 1: every channel as after power-on, its fault cause ended and its handed flag cleared. Candidates
restart where the filter setting changes (R57). -/
def State.resetChannels (s : State) : State :=
  let t := channelNumbers.foldl State.standChannel (s.withTrip { s.trip with handed := Vector.replicate 6 false })
  State.refilter s (t.withChannels (Vector.replicate 6 Channel.reset))

/-- Step 2 for a line: INACTIVE, its pulse cancelled, its owner and shape as the seal says (R158, R185). -/
def Line.engineReset (l : Line) (keepOwner keepShape : Bool) : Line :=
  ⟨if keepOwner then l.owner else .nobody, keepShape && l.inverted, if keepShape then l.safe else .opened, false, none⟩

/-- Steps 2 and 5 for a pair: its pairing and gap as the seal says, SETTLED unless it is still owned and its
target changes, which it does when the permit was PERMITTED (R158). -/
def Pair.engineReset (p : Pair) (keepShape stillOwned wasPermitted : Bool) : Pair :=
  let q : Pair := if keepShape then p else .reset
  ⟨q.paired, q.gap, if q.paired && stillOwned && wasPermitted then some (q.gap.toNat * microsecond) else none⟩

def tabulate6 {α : Type} (f : Fin 6 → α) : Vector α 6 := #v[f 0, f 1, f 2, f 3, f 4, f 5]

/-- The line table after ENGINE_RESET; bank shut flags are kept. -/
def State.resetMatrix (s : State) : LineMatrix :=
  ⟨tabulate12 fun n => (s.line n).engineReset s.keepsBindings s.keepsShapes,
   tabulate6 fun j => (s.pair j).engineReset s.keepsShapes
     (((s.line (evenLine j)).engineReset s.keepsBindings s.keepsShapes).owner != .nobody) (s.trip.permit == .permitted),
   s.matrix.shut⟩

/-- Step 3: the DIN settings, unless the seal keeps them. -/
def State.resetDins (s : State) : FrontEnd :=
  if s.keepsBindings then s.inputs else { s.inputs with din := tabulate8 fun n => s.inputs.din[n].configure 2#2 false }

/-- A PERMITTED permit becomes WITHHELD (R160). -/
def Permit.afterEngineReset : Permit → Permit
  | .permitted => .withheld
  | .withheld => .withheld
  | .tripped => .tripped

/-- Step 4. -/
def TripUnit.engineReset (t : TripUnit) (keep : Bool) : TripUnit :=
  let c : TripConfig := if keep then t.config else .reset
  { t with permit := t.permit.afterEngineReset, config := c, watchLeft := if c.watch = 0#8 then none else t.watchLeft }

/-- A pop slot whose message or word the reset discards ends without effect (R5). -/
def Transaction.voidPop (t : Transaction) : Transaction :=
  if t.command = some (readByte indexPopHead) ∨ t.command = some (readByte indexPopBody) then
    { t with slot := t.slot.map fun x => if x.outcome = .hands then { x with outcome := .void } else x }
  else t

/-- Step 6: the queues are emptied (R189). -/
def HostPort.engineReset (p : HostPort) : HostPort :=
  { p with ciq := [], popBuffer := [], transaction := p.transaction.map Transaction.voidPop }

def State.engineReset (s : State) : State :=
  let t := ((s.resetChannels.withMatrix s.resetMatrix))
  let u := ((t.withInputs t.resetDins).withTrip (t.trip.engineReset s.keepsTrip)).recomputeTripIn
  (u.withPort u.port.engineReset).withOut { u.out with rnq := [] }

/-- ENGINE_RESET (R188, R189). -/
def execEngineReset (s : State) : Host.Outcome State Fault Refusal :=
  .next (s.command engineResetForm fun _ t =>
    (t.engineReset, .done [placeNat 0 t.port.ciq.length, placeNat 0 t.out.rnq.length]))

end Sys2Proof.Machine
end

