-- ==== Sys2Proof/Machine/Events.lean ====
section
/-! DEFINITION. The occurrences of an instant, category by category (R32). Each takes place only when it is
due: a candidate has been held for its filter time, a timer is at zero and is not held by a freeze. A row
for an occurrence that is not due changes nothing (log entries 1 and 15). -/

namespace Sys2Proof.Machine

/-! ### Category 1: trip causes asserting (R149, R161, R164, R171) -/

/-- TRIP_IN asserts now: it owes its assertion, or its candidate is due and is at the active level. -/
def State.tripInAsserts (s : State) : Bool :=
  s.safety.tripIn.owed
    || (s.safety.tripIn.input.due safetyFilterTime && (s.safety.tripIn.input.filtered != s.trip.config.tripInActiveHigh))

/-- A safety input takes its assertion. -/
def SafetyInput.assert (i : SafetyInput) : SafetyInput := if i.owed then { i with owed := false } else { i with input := i.input.accept }

/-- R164 for a cause of a safety input, whose condition the state already shows. -/
def State.causeAsserts (s : State) (source : LedgerSource) (kind : LedgerKind) (present enabled : Bool) (trip : TripSource) : State :=
  (s.faultOccurrence source kind present).withdrawIf enabled trip

/-- TRIP_IN_ASSERT (R161, R164). -/
def execTripInAssert (s : State) : Host.Outcome State Fault Refusal :=
  .next (if s.tripInAsserts then
      let t := s.withSafety { s.safety with tripIn := s.safety.tripIn.assert }
      t.causeAsserts .tripIn .tripInput t.tripInPresent t.trip.config.tripInEnable .tripIn
    else s)

/-- OVLb asserts now, active HIGH. -/
def State.overloadAsserts (s : State) (b : Fin 3) : Bool :=
  s.safety.ovl[b].owed || (s.safety.ovl[b].input.due safetyFilterTime && !s.safety.ovl[b].input.filtered)

/-- OVERLOAD_ASSERT: the bank is shut, then R164 (R149). -/
def execOverloadAssert (b : Fin 3) (s : State) : Host.Outcome State Fault Refusal :=
  .next (if s.overloadAsserts b then
      ((s.withSafety { s.safety with ovl := s.safety.ovl.set b s.safety.ovl[b].assert }).setShut b true).causeAsserts
        (.bank b) .overload true s.trip.config.overloadEnable (.overload b)
    else s)

/-- SUPPLY_OK asserts now, active LOW. -/
def State.supplyAsserts (s : State) : Bool :=
  s.safety.supplyOk.owed || (s.safety.supplyOk.input.due safetyFilterTime && s.safety.supplyOk.input.filtered)

/-- SUPPLY_LOSS (R171). -/
def execSupplyLoss (s : State) : Host.Outcome State Fault Refusal :=
  .next (if s.supplyAsserts then
      (s.withSafety { s.safety with supplyOk := s.safety.supplyOk.assert }).causeAsserts
        .supply .supplyLoss true s.trip.config.supplyEnable .supply
    else s)

/-! ### Category 2: timer expiries (R141, R144, R97, R170) -/

/-- PULSE_END (R141). -/
def execPulseEnd (n : Fin 12) (s : State) : Host.Outcome State Fault Refusal :=
  .next (if (s.line n).pulseLeft = some 0 then s.setLogical n false none else s)

/-- GAP_END (R144). -/
def execGapEnd (j : Fin 6) (s : State) : Host.Outcome State Fault Refusal :=
  .next (if (s.pair j).gapLeft = some 0 then s.cancelGap j else s)

/-- The stall timer of a channel that is not frozen is at zero (R97). -/
def State.stallDue (s : State) (k : Fin 6) : Bool := ((s.chan k).stallLeft == some 0) && !s.frozen k

/-- STALL_EXPIRY (R97, R99). -/
def execStallExpiry (k : Fin 6) (s : State) : Host.Outcome State Fault Refusal :=
  .next (if s.stallDue k then s.channelFault k .stall else s)

/-- WATCH_EXPIRY (R170). -/
def execWatchExpiry (s : State) : Host.Outcome State Fault Refusal :=
  .next (if s.trip.watchLeft = some 0 then
      (s.withTrip { s.trip with watchLeft := none, hostLost := true }).causeAsserts
        .host .hostLost true (s.trip.config.hostLoss == .trip) .hostLost
    else s)

/-! ### Category 3: count steps (R38, R40) -/

/-- A count-input candidate is due: it has been held for its filter time, and it has not restarted within the
instant in progress (R38, R39). -/
def State.countDue (s : State) (p : Fin 12) : Bool :=
  (s.countPin p).due (countFilterTime (s.countFilterOf p)) && !s.inputs.restarted.getLsbD p.val

/-- The front end with the named candidates that are due accepted together. -/
def State.acceptCounts (s : State) (pins : BitVec 12) : FrontEnd :=
  { s.inputs with
    count := tabulate12 fun p => if pins.getLsbD p.val && s.countDue p then (s.countPin p).accept else s.countPin p }

/-- COUNT_FILTER_ACCEPT: the filtered levels change together, then the steps are taken, channel 0 to
channel 5 (R32, R38). -/
def execCountFilterAccept (pins : BitVec 12) (s : State) : Host.Outcome State Fault Refusal :=
  .next (channelNumbers.foldl (State.takeSteps s.inputs (s.acceptCounts pins)) (s.withInputs (s.acceptCounts pins)))

/-! ### Category 4: term edges (R49, R52) -/

def State.dinDue (s : State) (n : Fin 8) : Bool := (s.dinPin n).input.due (dinFilterTime (s.dinPin n).code)

/-- The front end with the named DIN candidates that are due applied together. -/
def State.acceptDins (s : State) (pins : BitVec 8) : FrontEnd :=
  { s.inputs with
    din := tabulate8 fun n =>
      if pins.getLsbD n.val && s.dinDue n then { s.dinPin n with input := (s.dinPin n).input.accept } else s.dinPin n }

/-- DIN_FILTER_ACCEPT: the DIN levels change together, then every channel is evaluated, channel 0 to
channel 5 (R32, R49, R52). With no candidate due there is no DIN change and no evaluation. -/
def execDinFilterAccept (pins : BitVec 8) (s : State) : Host.Outcome State Fault Refusal :=
  .next (if dinNumbers.any (fun n => pins.getLsbD n.val && s.dinDue n) then
      channelNumbers.foldl (State.evaluateChannel s.inputs) (s.withInputs (s.acceptDins pins))
    else s)

/-! ### Category 5: window ends (R134) -/

/-- The window timer of a channel that counts and is not frozen is at zero. -/
def State.windowDue (s : State) (k : Fin 6) : Option WindowLength :=
  match (s.chan k).windowLeft with
  | some w => if w.left = 0 ∧ (s.chan k).state.counts = true ∧ s.frozen k = false then some w.length else none
  | none => none

/-- WINDOW_END (R134). -/
def execWindowEnd (k : Fin 6) (s : State) : Host.Outcome State Fault Refusal :=
  .next (match s.windowDue k with
    | some length => s.windowEnd k length
    | none => s)

/-! ### Category 6: trip causes releasing (R161, R165) -/

def State.tripInReleases (s : State) : Bool :=
  !s.safety.tripIn.owed && s.safety.tripIn.input.due safetyFilterTime
    && (s.safety.tripIn.input.filtered == s.trip.config.tripInActiveHigh)

/-- A safety input takes its release. -/
def SafetyInput.release (i : SafetyInput) : SafetyInput := { i with input := i.input.accept }

/-- TRIP_IN_RELEASE (R161, R165). -/
def execTripInRelease (s : State) : Host.Outcome State Fault Refusal :=
  .next (if s.tripInReleases then
      (s.withSafety { s.safety with tripIn := s.safety.tripIn.release }).setCondition .tripIn .tripInput false
    else s)

def State.overloadReleases (s : State) (b : Fin 3) : Bool :=
  !s.safety.ovl[b].owed && s.safety.ovl[b].input.due safetyFilterTime && s.safety.ovl[b].input.filtered

/-- OVERLOAD_RELEASE: the record turns STANDING, the bank stays shut (R149, R165). -/
def execOverloadRelease (b : Fin 3) (s : State) : Host.Outcome State Fault Refusal :=
  .next (if s.overloadReleases b then
      (s.withSafety { s.safety with ovl := s.safety.ovl.set b s.safety.ovl[b].release }).setCondition (.bank b) .overload false
    else s)

def State.supplyReleases (s : State) : Bool :=
  !s.safety.supplyOk.owed && s.safety.supplyOk.input.due safetyFilterTime && !s.safety.supplyOk.input.filtered

/-- SUPPLY_RETURN (R151, R165, R171). -/
def execSupplyReturn (s : State) : Host.Outcome State Fault Refusal :=
  .next (if s.supplyReleases then
      (s.withSafety { s.safety with supplyOk := s.safety.supplyOk.release }).setCondition .supply .supplyLoss false
    else s)

end Sys2Proof.Machine
end

