-- ==== Sys2Proof/Machine/Time.lean ====
section
/-! DEFINITION. What the part does by itself while no command waits: initialisation ends, the Command
Engine takes a message, or time passes to the next instant and its occurrences wait in the order of R32
(log entries 2, 3 and 15). Times are in half microseconds. -/

namespace Sys2Proof.Machine

/-! ### How long until something is due -/

/-- What is left of a filter time; none without a candidate. -/
def FilteredInput.left (i : FilteredInput) (time : Nat) : Option Nat := i.held.map (time - ·)

/-- A safety input's time to its next change; an owed assertion is due at once (log entry 12). -/
def SafetyInput.left (i : SafetyInput) : Option Nat := if i.owed then some 0 else i.input.left safetyFilterTime

/-- The lesser of two times, where none is never. -/
def sooner : Option Nat → Option Nat → Option Nat
  | some a, some b => some (min a b)
  | some a, none => some a
  | none, x => x

def soonest (l : List (Option Nat)) : Option Nat := l.foldl sooner none

/-- The stall timer and the window timer of a channel count down unless it is frozen (R97, R133). -/
def State.channelLeft (s : State) (k : Fin 6) : List (Option Nat) :=
  if s.frozen k then [] else [(s.chan k).stallLeft, (s.chan k).windowLeft.map (·.left)]

/-- The time to the next occurrence, none when none will come by itself. -/
def State.untilDue (s : State) : Option Nat :=
  soonest <|
    [s.safety.tripIn.left, s.safety.supplyOk.left, s.trip.watchLeft]
      ++ bankNumbers.map (fun b => s.safety.ovl[b].left)
      ++ countPinNumbers.map (fun p => (s.countPin p).left (countFilterTime (s.countFilterOf p)))
      ++ dinNumbers.map (fun n => (s.dinPin n).input.left (dinFilterTime (s.dinPin n).code))
      ++ lineNumbers.map (fun n => (s.line n).pulseLeft)
      ++ pairNumbers.map (fun j => (s.pair j).gapLeft)
      ++ channelNumbers.flatMap s.channelLeft

/-! ### Time passes -/

def FilteredInput.elapse (i : FilteredInput) (d : Nat) : FilteredInput := { i with held := i.held.map (· + d) }
def SafetyInput.elapse (i : SafetyInput) (d : Nat) : SafetyInput := { i with input := i.input.elapse d }

/-- What a timer has left after a time. -/
def countDown (d : Nat) (t : Option Nat) : Option Nat := t.map (· - d)

def Line.elapse (l : Line) (d : Nat) : Line := { l with pulseLeft := countDown d l.pulseLeft }
def Pair.elapse (p : Pair) (d : Nat) : Pair := { p with gapLeft := countDown d p.gapLeft }

/-- A frozen channel keeps the remaining times of its timers (R166). -/
def Channel.elapse (c : Channel) (d : Nat) (frozen : Bool) : Channel :=
  if frozen then c
  else { c with
    stallLeft := countDown d c.stallLeft
    windowLeft := c.windowLeft.map fun w => { w with left := w.left - d } }

/-- The state after a time in which nothing occurs. -/
def State.elapse (s : State) (d : Nat) : State :=
  { s with
    inputs := ⟨tabulate12 fun p => (s.countPin p).elapse d,
      tabulate8 fun n => { s.dinPin n with input := (s.dinPin n).input.elapse d }, s.inputs.restarted⟩
    safety := ⟨s.safety.tripIn.elapse d, tabulate3 fun b => s.safety.ovl[b].elapse d, s.safety.supplyOk.elapse d⟩
    channels := tabulate6 fun k => (s.chan k).elapse d (s.frozen k)
    matrix := { s.matrix with
      lines := tabulate12 fun n => (s.line n).elapse d
      pairs := tabulate6 fun j => (s.pair j).elapse d }
    trip := { s.trip with watchLeft := countDown d s.trip.watchLeft } }

/-! ### The occurrences of the instant, in the order of R32 -/

def rowIf (b : Bool) (c : Instr) : List Instr := if b then [c] else []

def State.dueCausesAsserting (s : State) : List Instr :=
  rowIf s.tripInAsserts .tripInAssert ++ bankNumbers.flatMap (fun b => rowIf (s.overloadAsserts b) (.overloadAssert b))
    ++ rowIf s.supplyAsserts .supplyLoss

def State.dueTimers (s : State) : List Instr :=
  lineNumbers.flatMap (fun n => rowIf ((s.line n).pulseLeft == some 0) (.pulseEnd n))
    ++ pairNumbers.flatMap (fun j => rowIf ((s.pair j).gapLeft == some 0) (.gapEnd j))
    ++ channelNumbers.flatMap (fun k => rowIf (s.stallDue k) (.stallExpiry k))
    ++ rowIf (s.trip.watchLeft == some 0) .watchExpiry

/-- The pins whose candidates are due, as a mask. -/
def State.dueCountMask (s : State) : BitVec 12 := (placeFlags 0 (countPinNumbers.map s.countDue)).setWidth 12
def State.dueDinMask (s : State) : BitVec 8 := (placeFlags 0 (dinNumbers.map s.dinDue)).setWidth 8

def State.dueInputs (s : State) : List Instr :=
  rowIf (s.dueCountMask != 0#12) (.countFilterAccept s.dueCountMask)
    ++ rowIf (s.dueDinMask != 0#8) (.dinFilterAccept s.dueDinMask)

/-- The window timers at zero. That of a frozen channel waits with the others, since an auto-resume in category
3 may end the freeze before category 5 comes (R133, R169). -/
def State.dueWindows (s : State) : List Instr :=
  channelNumbers.flatMap fun k => rowIf ((s.chan k).windowLeft.any (·.left == 0)) (.windowEnd k)

def State.dueCausesReleasing (s : State) : List Instr :=
  rowIf s.tripInReleases .tripInRelease ++ bankNumbers.flatMap (fun b => rowIf (s.overloadReleases b) (.overloadRelease b))
    ++ rowIf s.supplyReleases .supplyReturn

/-- Everything due now, in the order of R32. -/
def State.dueOccurrences (s : State) : List Instr :=
  s.dueCausesAsserting ++ s.dueTimers ++ s.dueInputs ++ s.dueWindows ++ s.dueCausesReleasing

/-! ### Going on without a command -/

/-- A safety input still owes its assertion to the first instant. -/
def State.owesAssertion (s : State) : Bool :=
  s.safety.tripIn.owed || bankNumbers.any (fun b => s.safety.ovl[b].owed) || s.safety.supplyOk.owed

/-- The row that stands for the Command Engine's next step (R23). -/
def State.engineRow (s : State) : List Instr :=
  match s.nextMessage with
  | some (m, _) => [commandRow (headKind m.head)]
  | none => []

/-- An instant begins: every pin holds its level until the instant ends (R148). -/
def State.beginInstant (s : State) : State := s.withInstant (some (tabulate12 s.pinLevel))

/-- Time passes to the next instant, which begins, and its occurrences wait. DESIGN CHOICE (log entry 31): when one step or
instant sets filter time 0 for several pins that differ from their filtered levels, the instant of its own that R39 and R48
give each candidate is one instant for all of them, shared with whatever else is then due. -/
def State.passTime (s : State) : State :=
  match s.untilDue with
  | some d => (s.elapse d).beginInstant.withPending (s.elapse d).dueOccurrences
  | none => s

/-- What the part does by itself between instants: the end of initialisation, then the Command Engine before the
next instant (R23), then the next instant. -/
def State.proceed (s : State) : State :=
  if s.initialising then s.withPending [.initialisationComplete]
  else if !s.owesAssertion && s.engineMayTake then s.withPending s.engineRow
  else s.passTime

/-- What the part does by itself: with no occurrence waiting an instant in progress has ended (R148), and the part
goes on from there. -/
def State.goOn (s : State) : State := s.endInstant.proceed

end Sys2Proof.Machine
end

