-- ==== Sys2Proof/Machine/Dispatch.lean ====
section
/-! DEFINITION. The effect of every command on the state, one arm per row of the table. -/

namespace Sys2Proof.Machine

def exec (i : Instr) (s : State) : Host.Outcome State Fault Refusal :=
  match i with
  | .pushHead word => Sys2Proof.Machine.execPushHead word s
  | .pushBody word => Sys2Proof.Machine.execPushBody word s
  | .popHead phase => Sys2Proof.Machine.execPopHead phase s
  | .popBody phase => Sys2Proof.Machine.execPopBody phase s
  | .linkCountsRead phase => Sys2Proof.Machine.execLinkCountsRead phase s
  | .discardAssembly word => Sys2Proof.Machine.execDiscardAssembly s word
  | .discardCiq word => Sys2Proof.Machine.execDiscardCiq s word
  | .discardRnq word => Sys2Proof.Machine.execDiscardRnq s word
  | .clearFramingSticky word => Sys2Proof.Machine.execClearFramingSticky s word
  | .clearNoticeLostSticky word => Sys2Proof.Machine.execClearNoticeLostSticky s word
  | .attnMaskWrite word => Sys2Proof.Machine.execAttnMaskWrite word s
  | .ignoredRegisterWrite index word => Sys2Proof.Machine.execIgnoredRegisterWrite index word s
  | .transactionEnd => Sys2Proof.Machine.execTransactionEnd s
  | .powerOnReset => Sys2Proof.Machine.execPowerOnReset s
  | .rstnReset => Sys2Proof.Machine.execRstnReset s
  | .initialisationComplete => Sys2Proof.Machine.execInitialisationComplete s
  | .unknownKind => Sys2Proof.Machine.execUnknownKind s
  | .ping => Sys2Proof.Machine.execPing s
  | .identify => Sys2Proof.Machine.execIdentify s
  | .readStatus => Sys2Proof.Machine.execReadStatus s
  | .setInputs => Sys2Proof.Machine.execSetInputs s
  | .readInputs => Sys2Proof.Machine.execReadInputs s
  | .stageMode => Sys2Proof.Machine.execStageMode s
  | .stageTargets => Sys2Proof.Machine.execStageTargets s
  | .stageTerms => Sys2Proof.Machine.execStageTerms s
  | .stageGuard => Sys2Proof.Machine.execStageGuard s
  | .commit => Sys2Proof.Machine.execCommit s
  | .readConfig => Sys2Proof.Machine.execReadConfig s
  | .stageMark => Sys2Proof.Machine.execStageMark s
  | .clearMarks => Sys2Proof.Machine.execClearMarks s
  | .readMarks => Sys2Proof.Machine.execReadMarks s
  | .start => Sys2Proof.Machine.execStart s
  | .restart => Sys2Proof.Machine.execRestart s
  | .quench => Sys2Proof.Machine.execQuench s
  | .halt => Sys2Proof.Machine.execHalt s
  | .readChannel => Sys2Proof.Machine.execReadChannel s
  | .readCaptures => Sys2Proof.Machine.execReadCaptures s
  | .readRate => Sys2Proof.Machine.execReadRate s
  | .bindLine => Sys2Proof.Machine.execBindLine s
  | .unbindLine => Sys2Proof.Machine.execUnbindLine s
  | .shapeLine => Sys2Proof.Machine.execShapeLine s
  | .shapePair => Sys2Proof.Machine.execShapePair s
  | .driveLines => Sys2Proof.Machine.execDriveLines s
  | .readLines => Sys2Proof.Machine.execReadLines s
  | .setTrip => Sys2Proof.Machine.execSetTrip s
  | .trip => Sys2Proof.Machine.execTrip s
  | .resume => Sys2Proof.Machine.execResume s
  | .readTrip => Sys2Proof.Machine.execReadTrip s
  | .readFaults => Sys2Proof.Machine.execReadFaults s
  | .ackFault => Sys2Proof.Machine.execAckFault s
  | .sealRaise => Sys2Proof.Machine.execSealRaise s
  | .engineReset => Sys2Proof.Machine.execEngineReset s
  | .countInputChange pin level => Sys2Proof.Machine.execCountInputChange pin level s
  | .countFilterAccept pins => Sys2Proof.Machine.execCountFilterAccept pins s
  | .dinChange pin level => Sys2Proof.Machine.execDinChange pin level s
  | .dinFilterAccept pins => Sys2Proof.Machine.execDinFilterAccept pins s
  | .tripInAssert => Sys2Proof.Machine.execTripInAssert s
  | .tripInRelease => Sys2Proof.Machine.execTripInRelease s
  | .overloadAssert bank => Sys2Proof.Machine.execOverloadAssert bank s
  | .overloadRelease bank => Sys2Proof.Machine.execOverloadRelease bank s
  | .supplyLoss => Sys2Proof.Machine.execSupplyLoss s
  | .supplyReturn => Sys2Proof.Machine.execSupplyReturn s
  | .pulseEnd line => Sys2Proof.Machine.execPulseEnd line s
  | .gapEnd pair => Sys2Proof.Machine.execGapEnd pair s
  | .stallExpiry channel => Sys2Proof.Machine.execStallExpiry channel s
  | .watchExpiry => Sys2Proof.Machine.execWatchExpiry s
  | .windowEnd channel => Sys2Proof.Machine.execWindowEnd channel s
  | .transactionStart command => Sys2Proof.Machine.execTransactionStart command s
  | .safetyInputChange pin level => Sys2Proof.Machine.execSafetyInputChange pin level s
  | .rstnRelease => Sys2Proof.Machine.execRstnRelease s
  | .vddLoss => Sys2Proof.Machine.execVddLoss s

end Sys2Proof.Machine
end

