-- ==== Sys2Proof/Machine/Step.lean ====
section
/-! DEFINITION. One step of the block: the command at the front of the queue takes place; on an empty queue
the part goes on by itself (log entries 1 and 2). -/

namespace Sys2Proof.Machine

/-- The command at the front of the queue, on the state with the rest of the queue. -/
def step (s : State) : Host.Outcome State Fault Refusal :=
  match s.pending with
  | c :: rest => exec c (s.withPending rest)
  | [] => .next s.goOn

/-- A command at the front of the queue. -/
def State.withCommand (s : State) (c : Instr) : State := s.withPending (c :: s.pending)

/-- The command that a table word spells, at the front of the queue. No word spells one, so the state stays
as it is (log entry 18). -/
def State.withFetchWord (s : State) (nbits w : Nat) : State :=
  match decodeTableWord nbits w with
  | some c => s.withCommand c
  | none => s

end Sys2Proof.Machine
end

