-- ==== Sys2Proof/Safety.lean ====
section
/-! DEFINITION. The conditions that the part keeps at every point between steps, in the words of the rules
that state them, and the shape of a step that only answers. Statements are made in these terms. -/

namespace Sys2Proof.Machine

/-! ### Queues (R7, R9, R19, R26) -/

/-- A message whose body has the length its head declares (R19). -/
def Message.whole (m : Message) : Prop := m.body.length = (headLength m.head).toNat

/-- The inbound side: at most 8 committed messages and reservations, all whole, and an assembly that still
expects a body word (R7, R9). -/
def HostPort.inboundWf (p : HostPort) : Prop :=
  p.ciq.length + p.reservation ≤ ciqSlots ∧ (∀ m ∈ p.ciq, m.whole)
    ∧ ∀ a ∈ p.assembly, a.body.length < (headLength a.head).toNat

/-- The outbound side between steps: at most 32 messages, at most 24 notices, no reservation, all whole, and
at most 7 words in the pop buffer (R11, R19, R26). -/
def State.outboundWf (s : State) : Prop :=
  s.out.rnq.length ≤ rnqSlots ∧ s.out.noticeCount ≤ noticeSlots ∧ s.out.reserved = false
    ∧ (∀ m ∈ s.out.rnq, m.whole) ∧ s.port.popBuffer.length ≤ 7

def State.queuesWf (s : State) : Prop := s.port.inboundWf ∧ s.outboundWf

/-! ### Not ready (R6, R18, R187) -/

/-- A transaction that the port does not recognise as active, whose slots carry 0 (R6). -/
def Transaction.inert (t : Transaction) : Prop := t.active = false ∧ ∀ x ∈ t.slot, x = ⟨0#32, .void⟩

/-- While the part is held in reset or initialises, every piece of state holds its power-on value, but for
what belongs to the surroundings: pins, supply, RST_N and CS_N (R187, R190). MISO carries nothing but 0 (R6). -/
def State.quiet (s : State) : Prop :=
  s.port = { HostPort.reset with transaction := s.port.transaction, miso := s.port.miso.silenced }
    ∧ (∀ t ∈ s.port.transaction, t.inert)
    ∧ s.out = Outbox.reset ∧ s.inputs = s.inputs.afterReset ∧ s.safety = s.safety.afterReset
    ∧ s.channels = Vector.replicate 6 Channel.reset ∧ s.matrix = LineMatrix.reset ∧ s.trip = TripUnit.reset
    ∧ s.ledger = ⟨[], false⟩ ∧ s.sealLevel = 0#2 ∧ s.instant = none

def State.quietUnlessReady (s : State) : Prop := s.power.ready = false → s.quiet

/-! ### The line table (R114, R138, R144, R145) -/

/-- A line whose pulse timer is running is ACTIVE, and a line owned by NONE is INACTIVE. -/
def Line.wf (l : Line) : Prop := (l.pulseLeft.isSome = true → l.active = true) ∧ (l.owner = .nobody → l.active = false)

/-- The two lines of a pair have one owner, the odd line is INACTIVE with an idle timer, their safe levels
are not both their active levels, and only an owned pair is in its gap. -/
def State.pairWf (s : State) (j : Fin 6) : Prop :=
  ((s.pair j).paired = true →
    (s.line (evenLine j)).owner = (s.line (oddLine j)).owner ∧ (s.line (oddLine j)).active = false
      ∧ ((s.line (evenLine j)).safeActive && (s.line (oddLine j)).safeActive) = false)
    ∧ ((s.pair j).gapLeft.isSome = true → s.ownedPair j = true)

/-- Every line that a mark list names is a SINGLE or PAIR_EVEN line of channel k (R114). -/
def State.marksOwned (s : State) (k : Fin 6) (marks : List Mark) : Prop := ∀ m ∈ marks, s.markLineTaken k m = false

/-- The mark lists of channel k name lines that it may act on: the active list, and a staged list that waits
for a boundary, which it does only in RUNNING or QUENCHED (R73, R114). -/
def State.marksWf (s : State) (k : Fin 6) : Prop :=
  s.marksOwned k (s.chan k).active.marks
    ∧ ((s.chan k).commitPending = true → (s.chan k).state.counts = true ∧ s.marksOwned k (s.chan k).staged.marks)

/-- The levels that the pins hold through an instant in progress: no pair has both at their active levels
(R145, R148). -/
def State.heldPinsWf (s : State) : Prop :=
  ∀ held ∈ s.instant, ∀ j : Fin 6, (s.pair j).paired = true →
    ((held[evenLine j] == (s.line (evenLine j)).activeLevel) && (held[oddLine j] == (s.line (oddLine j)).activeLevel)) = false

def State.linesWf (s : State) : Prop :=
  (∀ n : Fin 12, (s.line n).wf) ∧ (∀ j : Fin 6, s.pairWf j) ∧ (∀ k : Fin 6, s.marksWf k) ∧ s.heldPinsWf

/-! ### The permit, the causes and the ledger (R99, R159, R162, R178, R179) -/

/-- A channel remembers its fault exactly while it is FAULTED, and only a FAULTED channel is handed over. -/
def State.faultWf (s : State) (k : Fin 6) : Prop :=
  ((s.chan k).state = .faulted ↔ (s.chan k).faultedBy.isSome = true)
    ∧ (s.trip.handed[k] = true → (s.chan k).state = .faulted)

/-- While the permit is PERMITTED, no enabled trip cause is present (R159). -/
def State.permitWf (s : State) : Prop := s.trip.permit = .permitted → s.enabledCauses = 0#32

/-- OVLb and SUPPLY_OK owe an assertion only while they stand at their active level (R161). -/
def State.owedWf (s : State) : Prop :=
  (∀ b : Fin 3, s.safety.ovl[b].owed = true → s.safety.ovl[b].input.filtered = true)
    ∧ (s.safety.supplyOk.owed = true → s.safety.supplyOk.input.filtered = false)

def State.tripWf (s : State) : Prop := (∀ k : Fin 6, s.faultWf k) ∧ s.permitWf ∧ s.owedWf

/-- The cause of a ledger source and kind is present (R179). -/
def State.causePresent (s : State) : LedgerSource → LedgerKind → Bool
  | .channel k, .stall => (s.chan k).faultedBy == some .stall
  | .channel k, .overflow => (s.chan k).faultedBy == some .overflow
  | .bank b, .overload => s.overloadPresent b
  | .supply, .supplyLoss => s.supplyLost
  | .tripIn, .tripInput => s.tripInPresent
  | .host, .hostLost => s.trip.hostLost
  | _, _ => false

/-- Two records of one source and kind. -/
def LedgerRecord.sameTrouble (a b : LedgerRecord) : Prop := a.source = b.source ∧ a.kind = b.kind

/-- At most 16 records, at most one for each source and kind, each ACTIVE exactly while its cause is present
(R178, R179). -/
def State.ledgerWf (s : State) : Prop :=
  s.ledger.records.length ≤ ledgerSlots ∧ s.ledger.records.Pairwise (fun a b => ¬a.sameTrouble b)
    ∧ ∀ r ∈ s.ledger.records, r.active = s.causePresent r.source r.kind

/-! ### Terms (R50, R51) -/

/-- A term that a well-formed descriptor writes: one to three references, or NONE with the operator AND. -/
def Term.wellFormed (t : Term) : Prop := t.refs.length ≤ 3 ∧ (t.refs = [] → t.operator = .conj)

/-! ### Channels (R69, R80, R97, R107, R125, R131, R132) -/

/-- What holds of a channel by itself: at most 8 marks in either list, 4 capture records and 4 samples, a stall timer only in RUNNING
with the gate open and stall not 0, a window timer exactly while a PACE channel counts, a pending commit only
while it counts, and OFF or LENT exactly under mode OFF. -/
def Channel.wf (c : Channel) : Prop :=
  c.staged.marks.length ≤ markSlots ∧ c.active.marks.length ≤ markSlots ∧ c.captures.length ≤ fifoSlots
    ∧ c.ring.length ≤ ringSlots
    ∧ (c.stallLeft.isSome = true → c.state = .running ∧ c.gateOpen = true ∧ c.active.stall ≠ 0#8)
    ∧ (c.windowLeft.isSome = true ↔ c.active.mode = .pace ∧ c.state.counts = true)
    ∧ (c.commitPending = true → c.state.counts = true ∧ c.staged.differsStructurally c.active = false)
    ∧ (c.active.mode = .off ↔ c.state = .off ∨ c.state = .lent)

/-- An odd channel is LENT exactly while its even partner is in SPAN (R76). -/
def State.lentWf (s : State) (k : Fin 6) : Prop :=
  isEven k = false → ((s.chan k).state = .lent ↔ (s.chan (partner k)).active.mode = .span)

def State.channelsWf (s : State) : Prop := (∀ k : Fin 6, (s.chan k).wf) ∧ ∀ k : Fin 6, s.lentWf k

/-- The held values are those of the active terms, gate and DIN levels (R52, R53, R54). -/
def State.heldWf (s : State) (k : Fin 6) : Prop :=
  let c := s.chan k
  c.heldStart = s.inputs.termValue c.active.startTerm ∧ c.heldRestart = s.inputs.termValue c.active.restartTerm
    ∧ c.heldQuench = s.inputs.termValue c.active.quenchTerm ∧ c.heldResync = s.inputs.termValue c.active.resyncTerm
    ∧ c.gateOpen = s.inputs.gateLevel c.active.gate

/-! ### What a step of the Command Engine answers (R19, R22, R23) -/

/-- The Command Engine may take m: it is at the front of the CIQ, and the RNQ has a free slot (R23). -/
def State.takes (s : State) (m : Message) (rest : List Message) : Prop :=
  s.port.ciq = m :: rest ∧ s.out.rnq.length < rnqSlots

/-- The head of a command with a kind, a channel field and a modifier (R19). -/
def Message.isCommand (m : Message) (kind : Byte) (channel : BitVec 4) (modifier : BitVec 9) : Prop :=
  headKind m.head = kind ∧ headChannel m.head = channel ∧ headModifier m.head = modifier

/-- The state after a step that does no more than answer: m has left the CIQ, the reply is at the tail of the
RNQ, no slot is reserved, and no instant is in progress (R32). Everything else is as it was. -/
def State.answered (s : State) (m : Message) (rest : List Message) (code : ResultCode) (body : List Word) : State :=
  { s with
    port := { s.port with ciq := rest }
    out := { s.out with rnq := s.out.rnq ++ [replyMessage m ⟨code, body⟩], reserved := false }
    inputs := { s.inputs with restarted := 0#12 }
    instant := none }

/-- The command rows that check a header, with the header each requires (section 2.8). -/
def commandForms : List (Instr × CommandForm) :=
  [(.ping, pingForm), (.identify, identifyForm), (.readStatus, readStatusForm), (.setInputs, setInputsForm),
   (.readInputs, readInputsForm), (.stageMode, stageModeForm), (.stageTargets, stageTargetsForm),
   (.stageTerms, stageTermsForm), (.stageGuard, stageGuardForm), (.commit, commitForm), (.readConfig, readConfigForm)]
    ++ [(.stageMark, stageMarkForm), (.clearMarks, clearMarksForm), (.readMarks, readMarksForm), (.start, startForm),
        (.restart, restartForm), (.quench, quenchForm), (.halt, haltForm), (.readChannel, readChannelForm),
        (.readCaptures, readCapturesForm), (.readRate, readRateForm), (.bindLine, bindLineForm)]
    ++ [(.unbindLine, unbindLineForm), (.shapeLine, shapeLineForm), (.shapePair, shapePairForm),
        (.driveLines, driveLinesForm), (.readLines, readLinesForm), (.setTrip, setTripForm), (.trip, tripForm),
        (.resume, resumeForm), (.readTrip, readTripForm), (.readFaults, readFaultsForm), (.ackFault, ackFaultForm),
        (.sealRaise, sealForm), (.engineReset, engineResetForm)]

/-! ### What a word slot meets (R1, R4, R6) -/

/-- An active transaction with a command byte is in progress. -/
def State.inTransaction (s : State) (command : Byte) (t : Transaction) : Prop :=
  s.port.transaction = some t ∧ t.command = some command ∧ t.active = true

/-- The rows of the word slots of the port. -/
def slotRows (w : Word) (index : BitVec 7) (phase : SlotPhase) : List Instr :=
  [.pushHead w, .pushBody w, .popHead phase, .popBody phase, .linkCountsRead phase, .discardAssembly w, .discardCiq w,
   .discardRnq w, .clearFramingSticky w, .clearNoticeLostSticky w, .attnMaskWrite w, .ignoredRegisterWrite index w]

/-- The state after rows have been taken one after another; none when one of them answers no next state. -/
def State.afterRows (s : State) : List Instr → Option State
  | [] => some s
  | c :: rows =>
    match exec c s with
    | .next t => t.afterRows rows
    | .fault _ | .refused _ => none

/-! ### What rules say in one breath -/

/-- The ledger with the record of a source and kind turned STANDING (R165, R179). -/
def Ledger.standingAt (l : Ledger) (source : LedgerSource) (kind : LedgerKind) : Ledger :=
  { l with records := l.records.map fun r => if r.source = source ∧ r.kind = kind then { r with active := false } else r }

/-- The state after a message has been committed: it is at the tail of the CIQ, the assembly has ended, the
watch is restarted and a host-lost condition has ended (R10, R170). -/
def State.committed (s : State) (m : Message) : State :=
  { s with
    port := { s.port with ciq := s.port.ciq ++ [m], assembly := none }
    trip := { s.trip with
      watchLeft := if s.trip.config.watch = 0#8 then none else some (s.trip.config.watch.toNat * tenMilliseconds)
      hostLost := false }
    ledger := if s.trip.hostLost then s.ledger.standingAt .host .hostLost else s.ledger }

/-- The timer of a channel's stall field at its full time, when it may run (R97). -/
def Channel.stallTime (c : Channel) : Option Nat :=
  if c.gateOpen = true ∧ c.active.stall ≠ 0#8 then some (c.active.stall.toNat * tenMilliseconds) else none

/-- A line as a line action of CLEAR leaves it (R140). -/
def Line.cleared (l : Line) : Line := { l with active := false, pulseLeft := none }

/-- A pair that has entered its gap, or restarted it in full (R144). -/
def Pair.inGap (p : Pair) : Pair := { p with gapLeft := some (p.gap.toNat * microsecond) }

/-- Of the Host Port and the queues, t differs from s by notices at the tail of the RNQ, by the notice-lost
sticky flag, and by the counters of the Outbox (R27, R30). -/
def State.onlyNotifies (s t : State) : Prop :=
  t.port = { s.port with noticeLostSticky := t.port.noticeLostSticky } ∧ t.out.reserved = s.out.reserved
    ∧ ∃ l, t.out.rnq = s.out.rnq ++ l ∧ ∀ m ∈ l, isNotice m = true

/-- The owned pairs enter their gaps when the permit changes to or from PERMITTED; nothing else of the line
table changes (R144). -/
def State.onlyGaps (s t : State) (targetsChange : Bool) : Prop :=
  (∀ n : Fin 12, t.line n = s.line n) ∧ t.matrix.shut = s.matrix.shut
    ∧ ∀ j : Fin 6, t.pair j = if targetsChange && s.ownedPair j then (s.pair j).inGap else s.pair j

/-- From s to t the lines of the named channels are released (R142), and no other line changes; a pair whose
reference this makes INACTIVE while PERMITTED enters its gap (R144). -/
def State.onlyReleases (s t : State) (named : Fin 6 → Bool) : Prop :=
  t.matrix.shut = s.matrix.shut
    ∧ (∀ (k : Fin 6) (n : Fin 12), named k = true → (s.line n).owner = .channel k → t.line n = (s.line n).cleared)
    ∧ (∀ n : Fin 12, (∀ k : Fin 6, named k = true → (s.line n).owner ≠ .channel k) → t.line n = s.line n)
    ∧ ∀ j : Fin 6, t.pair j =
      if s.trip.permit = .permitted ∧ (s.pair j).paired = true ∧ (s.line (evenLine j)).active = true
          ∧ (∃ k : Fin 6, named k = true ∧ (s.line (evenLine j)).owner = .channel k) then
        (s.pair j).inGap
      else s.pair j

/-- From s to t no filtered level and no DIN changes, and the count-input candidates restart exactly where the
channel or the setting that filters their pin changes (R39, R47; log entry 24). -/
def State.onlyRestarts (s t : State) : Prop :=
  t.inputs.din = s.inputs.din
    ∧ ∀ p : Fin 12, t.countPin p =
      if s.filterChannel p = t.filterChannel p ∧ s.countFilterOf p = t.countFilterOf p then s.countPin p
      else { s.countPin p with held := (s.countPin p).held.map fun _ => 0 }

/-- A channel whose staged set has become the active set, its held values taken without an edge (R53, R71). -/
def Channel.withStagedActive (c : Channel) (f : FrontEnd) : Channel :=
  { c with
    active := c.staged
    commitPending := false
    heldStart := f.termValue c.staged.startTerm
    heldRestart := f.termValue c.staged.restartTerm
    heldQuench := f.termValue c.staged.quenchTerm
    heldResync := f.termValue c.staged.resyncTerm
    gateOpen := f.gateLevel c.staged.gate }

/-- From s to t one fault occurrence has been taken: its ordinal, its ledger record (R180), and with trips the
withdrawal of the permit for the given source (R163, R164). Nothing else has changed but the notices. -/
def State.occurrenceTaken (s t : State) (source : LedgerSource) (kind : LedgerKind) (present trips : Bool)
    (trip : TripSource) : Prop :=
  t = { s with port := t.port, out := t.out, matrix := t.matrix, trip := t.trip, ledger := t.ledger }
    ∧ s.onlyNotifies t ∧ s.onlyGaps t trips
    ∧ t.out.ordinal = s.out.ordinal + (if trips then 2#16 else 1#16)
    ∧ t.trip = (if trips then { s.trip with permit := .tripped, last := some ⟨trip, s.out.ordinal + 1#16⟩ } else s.trip)
    ∧ ((∃ r ∈ s.ledger.records, r.source = source ∧ r.kind = kind) →
        t.ledger = { s.ledger with records := s.ledger.records.map fun r =>
          if r.source = source ∧ r.kind = kind then
            { r with repeats := if r.repeats = 15#4 then 15#4 else r.repeats + 1#4, active := present || r.active }
          else r })
    ∧ ((∀ r ∈ s.ledger.records, ¬(r.source = source ∧ r.kind = kind)) →
        t.ledger = if s.ledger.records.length < 16 then
          { s.ledger with records := s.ledger.records ++ [⟨s.out.ordinal, source, kind, present, 0#4⟩] }
        else { s.ledger with lost := true })

/-- From s to t channel k has faulted: its value, counts and captures are kept, its marks disarmed, its timers
stopped, its lines released and a pending commit applied; one occurrence is recorded, and with fault_trips the
channel is handed over and a PERMITTED permit withdrawn (R99, R142, R162 to R164, R180). -/
def State.channelFaulted (s t : State) (k : Fin 6) (fault : ChannelFault) : Prop :=
  let c := s.chan k
  let source := LedgerSource.channel k
  let kind := match fault with
    | .stall => LedgerKind.stall
    | .overflow => LedgerKind.overflow
  let trips := c.active.faultTrips && (s.trip.permit == .permitted)
  t = { s with
      port := t.port, out := t.out, inputs := t.inputs, channels := t.channels, matrix := t.matrix
      trip := t.trip, ledger := t.ledger }
    ∧ s.onlyNotifies t
    ∧ (∀ i : Fin 6, i ≠ k → t.chan i = s.chan i)
    ∧ (t.chan k).state = .faulted ∧ (t.chan k).faultedBy = some fault ∧ (t.chan k).value = c.value
    ∧ (t.chan k).cycleIndex = c.cycleIndex ∧ (t.chan k).captures = c.captures ∧ (t.chan k).accumulator = c.accumulator
    ∧ (t.chan k).stallLeft = none ∧ (t.chan k).windowLeft = none ∧ (t.chan k).resyncPending = false
    ∧ (t.chan k).arming.bits = 0#8 ∧ (t.chan k).commitPending = false
    ∧ (t.chan k).active = (if c.commitPending then c.staged else c.active)
    ∧ s.onlyRestarts t
    ∧ t.matrix.shut = s.matrix.shut
    ∧ (∀ n : Fin 12, t.line n = if (s.line n).owner = .channel k then (s.line n).cleared else s.line n)
    ∧ (∀ j : Fin 6, t.pair j =
        if s.trip.permit = .permitted ∧ (s.pair j).paired = true ∧ ((trips = true ∧ (s.line (evenLine j)).owner ≠ .nobody)
            ∨ (s.line (evenLine j)).owner = .channel k ∧ (s.line (evenLine j)).active = true) then
          (s.pair j).inGap
        else s.pair j)
    ∧ t.out.ordinal = s.out.ordinal + (if trips then 2#16 else 1#16)
    ∧ (∀ i : Fin 6, t.trip.handed[i] = (s.trip.handed[i] || (decide (i = k) && c.active.faultTrips)))
    ∧ t.trip = { s.trip with
        handed := t.trip.handed
        permit := if trips then .tripped else s.trip.permit
        last := if trips then some ⟨.channelFault k, s.out.ordinal + 1#16⟩ else s.trip.last }
    ∧ ((∃ r ∈ s.ledger.records, r.source = source ∧ r.kind = kind) →
        t.ledger = { s.ledger with records := s.ledger.records.map fun r =>
          if r.source = source ∧ r.kind = kind then
            { r with repeats := if r.repeats = 15#4 then 15#4 else r.repeats + 1#4, active := true }
          else r })
    ∧ ((∀ r ∈ s.ledger.records, ¬(r.source = source ∧ r.kind = kind)) →
        t.ledger = if s.ledger.records.length < 16 then
          { s.ledger with records := s.ledger.records ++ [⟨s.out.ordinal, source, kind, true, 0#4⟩] }
        else { s.ledger with lost := true })

/-- An input whose candidate has been accepted (R38). -/
def FilteredInput.flipped (i : FilteredInput) : FilteredInput := ⟨i.pin, !i.filtered, none⟩

/-- The candidate of an input has been held for at least a time (R38). -/
def FilteredInput.heldFor (i : FilteredInput) (time : Nat) : Prop := ∃ d, i.held = some d ∧ time ≤ d

end Sys2Proof.Machine
end

