-- ==== Sys2Proof/Certificates/Slice0/Obligations.lean ====
section
/-! DEFINITION. The statements about the model, one def per statement. OBLIGATIONS.json lists them with the
rules they formalise. -/

open Sys2Proof Sys2Proof.Machine

/-! ### The queue of commands -/

/-- A step takes the command at the front of the queue and runs it on the state with the rest (log entry 1). -/
def Obligations.StepRunsFrontCommand : Prop :=
  ∀ (c : Instr) (rest : List Instr) (s : State), s.pending = c :: rest →
    step s = exec c { s with pending := rest }

/-- Every command answers a next state and leaves the queue as it is (log entry 20). -/
def Obligations.EveryCommandKeepsQueue : Prop :=
  ∀ (c : Instr) (s : State), ∃ t, exec c s = .next t ∧ t.pending = s.pending

/-! ### The Host Port (Chapters 1 and 11) -/

/-- R8, with the commitment of R10 for a message of length 0; a head that arrives during an assembly finds a free slot. -/
def Obligations.PushHeadHandled : Prop :=
  ∀ (s : State) (t : Transaction) (w : Word), s.inTransaction 0x08#8 t →
    let p := { s.port with miso := .word 0#32 }
    let q := if s.port.assembly.isSome then
        { p with framingCount := saturatingAdd p.framingCount 1, framingSticky := true }
      else p
    (exec (.pushHead w) s = .next
      (if 8 ≤ s.port.ciq.length then
        { s with port := { p with refusedNow := true, refusedCount := saturatingAdd p.refusedCount 1 } }
      else if headLength w = 0#3 then State.committed { s with port := q } ⟨w, []⟩
      else { s with port := { q with assembly := some ⟨w, []⟩ } }))
    ∧ (s.port.inboundWf → s.port.assembly.isSome = true → s.port.ciq.length < 8)

/-- R9, with the commitment of R10. The assembly expects a body word, as every assembly does (R9). -/
def Obligations.PushBodyHandled : Prop :=
  ∀ (s : State) (t : Transaction) (w : Word), s.inTransaction 0x09#8 t →
    let p := { s.port with miso := .word 0#32 }
    (s.port.assembly = none → exec (.pushBody w) s = .next
      { s with port := { p with framingCount := saturatingAdd p.framingCount 1, framingSticky := true } })
    ∧ ∀ a, s.port.assembly = some a →
      (a.body.length + 1 < (headLength a.head).toNat → exec (.pushBody w) s = .next
        { s with port := { p with assembly := some ⟨a.head, a.body ++ [w]⟩ } })
      ∧ (a.body.length + 1 = (headLength a.head).toNat → exec (.pushBody w) s = .next
        (State.committed { s with port := p } ⟨a.head, a.body ++ [w]⟩))

/-- R12, R5 and R3: a slot of POP_HEAD taken whole; its two ends, with a message and with none; and its
interruption by CS_N, which leaves the message where it was. The model's own: one row may take a slot whole (log
entry 7), and a refused slot skips the words that the pop buffer holds at its end (log entry 9). -/
def Obligations.PopHeadSlot : Prop :=
  ∀ (s : State) (t : Transaction), s.inTransaction 0x8A#8 t →
    let ended := { t with slot := none, first := .past }
    let skipped := saturatingAdd s.port.skippedCount s.port.popBuffer.length
    let opened := fun x : Slot => { s with port := { s.port with transaction := some { t with slot := some x } } }
    (∀ m rest, s.out.rnq = m :: rest →
      let taken := { s with
        port := { s.port with
          transaction := some ended, miso := .word m.head, popBuffer := m.body, skippedCount := skipped }
        out := { s.out with rnq := rest } }
      (t.slot = none → exec (.popHead .completes) s = .next taken
        ∧ exec (.popHead .opens) s = .next (opened ⟨m.head, .hands⟩))
      ∧ (t.slot = some ⟨m.head, .hands⟩ → exec (.popHead .completes) s = .next taken))
    ∧ (s.out.rnq = [] → t.slot = none → exec (.popHead .opens) s = .next (opened ⟨0#32, .refuses⟩))
    ∧ (s.out.rnq = [] ∧ t.slot = none ∨ t.slot = some ⟨0#32, .refuses⟩ → exec (.popHead .completes) s = .next
        { s with port := { s.port with
          transaction := some ended, miso := .word 0#32, popBuffer := [], skippedCount := skipped, refusedNow := true } })
    ∧ (∀ w, t.slot = some ⟨w, .void⟩ → exec (.popHead .completes) s = .next
        { s with port := { s.port with transaction := some ended, miso := .word w } })
    ∧ (t.slot.isSome = true → exec .transactionEnd s = .next
        { s with port := { s.port with
          transaction := none, miso := .highImpedance, refusedLast := s.port.refusedNow, refusedNow := false } })

/-- R13, R5 and R3: a slot of POP_BODY, its two ends, and its interruption by CS_N. One row may take a slot whole
(log entry 7). -/
def Obligations.PopBodySlot : Prop :=
  ∀ (s : State) (t : Transaction), s.inTransaction 0x8B#8 t →
    let ended := { t with slot := none, first := .past }
    let opened := fun x : Slot => { s with port := { s.port with transaction := some { t with slot := some x } } }
    (∀ w rest, s.port.popBuffer = w :: rest →
      let taken := { s with port := { s.port with transaction := some ended, miso := .word w, popBuffer := rest } }
      (t.slot = none → exec (.popBody .completes) s = .next taken
        ∧ exec (.popBody .opens) s = .next (opened ⟨w, .hands⟩))
      ∧ (t.slot = some ⟨w, .hands⟩ → exec (.popBody .completes) s = .next taken))
    ∧ (s.port.popBuffer = [] → t.slot = none → exec (.popBody .opens) s = .next (opened ⟨0#32, .refuses⟩))
    ∧ (s.port.popBuffer = [] ∧ t.slot = none ∨ t.slot = some ⟨0#32, .refuses⟩ → exec (.popBody .completes) s = .next
        { s with port := { s.port with transaction := some ended, miso := .word 0#32, refusedNow := true } })
    ∧ (∀ w, t.slot = some ⟨w, .void⟩ → exec (.popBody .completes) s = .next
        { s with port := { s.port with transaction := some ended, miso := .word w } })
    ∧ (t.slot.isSome = true → exec .transactionEnd s = .next
        { s with port := { s.port with
          transaction := none, miso := .highImpedance, refusedLast := s.port.refusedNow, refusedNow := false } })

/-- R14, R4, R5, R1, R6, R192 and R194: the first slot of a LINK_COUNTS read carries the three counters and clears them
at its end; every later slot carries 0 and clears nothing; a slot interrupted by CS_N clears nothing. A slot decides at its
start what it carries; one row may take it whole (log entry 7). What every word slot carries, by its register: 0 in a
write and in a transaction that is not active; the register's value in the first read slot of an ordinary register
and 0 in the others; the next head or body word in every slot of a pop doorway. -/
def Obligations.LinkCountsReadOnce : Prop :=
  (∀ (s : State) (t : Transaction), s.inTransaction 0x84#8 t →
    let ended := { t with slot := none, first := .past }
    let counts := 0#8 ++ s.port.skippedCount ++ s.port.refusedCount ++ s.port.framingCount
    let opened := fun x : Slot => { s with port := { s.port with transaction := some { t with slot := some x } } }
    let carried := fun w : Word => { s with port := { s.port with transaction := some ended, miso := .word w } }
    let cleared := fun w : Word => { s with port := { s.port with
      transaction := some ended, miso := .word w, framingCount := 0#8, refusedCount := 0#8, skippedCount := 0#8 } }
    (t.slot = none →
      (t.first = .awaited → exec (.linkCountsRead .opens) s = .next (opened ⟨counts, .hands⟩)
        ∧ exec (.linkCountsRead .completes) s = .next (cleared counts))
      ∧ (t.first ≠ .awaited → exec (.linkCountsRead .opens) s = .next (opened ⟨0#32, .void⟩)
        ∧ exec (.linkCountsRead .completes) s = .next (carried 0#32)))
    ∧ (∀ w, t.slot = some ⟨w, .hands⟩ → exec (.linkCountsRead .completes) s = .next (cleared w))
    ∧ (∀ w, t.slot = some ⟨w, .void⟩ → exec (.linkCountsRead .completes) s = .next (carried w))
    ∧ (t.slot.isSome = true → exec .transactionEnd s = .next
        { s with port := { s.port with
          transaction := none, miso := .highImpedance, refusedLast := s.port.refusedNow, refusedNow := false } }))
    ∧ ∀ (s : State) (t : Transaction) (n : Nat),
      (t.active = false → s.slotWord t n = 0#32)
      ∧ (∀ c, t.command = some c → c.getLsbD 7 = false → s.slotWord t n = 0#32)
      ∧ (∀ c, s.inTransaction c t → c ≠ 0x8A#8 → c ≠ 0x8B#8 → n ≠ 0 → s.slotWord t n = 0#32)
      ∧ (s.inTransaction 0x8A#8 t → s.slotWord t n = (s.out.rnq.map Message.head).headD 0#32)
      ∧ (s.inTransaction 0x8B#8 t → s.slotWord t n = s.port.popBuffer.headD 0#32)
      ∧ (s.inTransaction 0x80#8 t → s.slotWord t 0 = 0x00010612#32)
      ∧ (s.inTransaction 0x81#8 t →
          let w := s.slotWord t 0
          w.getLsbD 0 = !s.out.rnq.isEmpty ∧ w.getLsbD 1 = decide (8 ≤ s.port.ciq.length)
            ∧ w.getLsbD 2 = s.port.refusedLast ∧ w.getLsbD 3 = decide (s.trip.permit ≠ .permitted)
            ∧ w.getLsbD 4 = !s.ledger.records.isEmpty ∧ w.getLsbD 5 = s.power.ready ∧ w.getLsbD 6 = s.attention
            ∧ w.extractLsb' 8 2 = (match s.trip.permit with | .withheld => 0#2 | .permitted => 1#2 | .tripped => 2#2)
            ∧ w.getLsbD 16 = s.port.framingSticky ∧ w.getLsbD 17 = s.port.noticeLostSticky
            ∧ w.getLsbD 18 = s.ledger.lost ∧ w &&& 0xFFF8FC80#32 = 0#32)
      ∧ (s.inTransaction 0x82#8 t → s.port.inboundWf →
          let w := s.slotWord t 0
          (w.extractLsb' 0 4).toNat = 8 - s.port.ciq.length - (if s.port.assembly.isSome then 1 else 0)
            ∧ (w.extractLsb' 8 4).toNat = (match s.port.assembly with
              | some a => (headLength a.head).toNat - a.body.length
              | none => 0)
            ∧ w &&& 0xFFFFF0F0#32 = 0#32)
      ∧ (s.inTransaction 0x83#8 t → s.outboundWf →
          let w := s.slotWord t 0
          (w.extractLsb' 0 6).toNat = s.out.rnq.length ∧ (w.extractLsb' 8 3).toNat = s.port.popBuffer.length
            ∧ w &&& 0xFFFFF8C0#32 = 0#32)
      ∧ (s.inTransaction 0x84#8 t →
          s.slotWord t 0 = 0#8 ++ s.port.skippedCount ++ s.port.refusedCount ++ s.port.framingCount)
      ∧ (s.inTransaction 0x86#8 t → s.slotWord t 0 = 0#28 ++ s.port.attnMask)
      ∧ ∀ c, s.inTransaction c t → (0x80#8 ≤ c ∧ c ≤ 0x84#8 ∨ c = 0x86#8 ∨ c = 0x8A#8 ∨ c = 0x8B#8) ∨ s.slotWord t 0 = 0#32

/-- R16, R4 and R194: the first word of LINK_CTRL discards the assembly, the CIQ and the RNQ with the pop buffer, as
its bits 0, 1 and 2 say, and nothing else; every later word discards nothing. A word has one row for each of these
bits that it sets, taken in their order (log entry 8). -/
def Obligations.FlushesDiscardWhatTheyName : Prop :=
  ∀ (s : State) (t : Transaction) (w : Word), s.inTransaction 0x05#8 t →
    let parts := (if w.getLsbD 0 then [0] else []) ++ (if w.getLsbD 1 then [1] else []) ++ (if w.getLsbD 2 then [2] else [])
    let rows := (if w.getLsbD 0 then [Instr.discardAssembly w] else []) ++ (if w.getLsbD 1 then [.discardCiq w] else [])
      ++ (if w.getLsbD 2 then [.discardRnq w] else [])
    let taken := fun f : FirstWord =>
      { s with port := { s.port with miso := .word 0#32, transaction := some { t with first := f } } }
    partsOf 0x05#7 w = parts
    ∧ (parts ≠ [] → writtenRows 0x05#7 w = rows)
    ∧ (parts ≠ [] → t.first = .awaited → s.afterRows rows = some { s with
        port := { s.port with
          miso := .word 0#32
          transaction := some { t with first := .past }
          assembly := if w.getLsbD 0 then none else s.port.assembly
          ciq := if w.getLsbD 1 then [] else s.port.ciq
          popBuffer := if w.getLsbD 2 then [] else s.port.popBuffer }
        out := { s.out with rnq := if w.getLsbD 2 then [] else s.out.rnq } })
    ∧ (∀ later : Word, t.first = .awaited →
        ((s.afterRows (writtenRows 0x05#7 w)).bind fun u => u.afterRows (writtenRows 0x05#7 later))
          = s.afterRows (writtenRows 0x05#7 w))
    ∧ ∀ left, t.first.left parts w = left →
      let next := fun l : List Nat => taken (if l = [] then .past else .acting w l)
      (w.getLsbD 0 = true → exec (.discardAssembly w) s = .next (match left with
        | 0 :: l => { next l with port := { (next l).port with assembly := none } }
        | _ => taken .past))
      ∧ (w.getLsbD 1 = true → exec (.discardCiq w) s = .next (match left with
        | 1 :: l => { next l with port := { (next l).port with ciq := [] } }
        | _ => taken .past))
      ∧ (w.getLsbD 2 = true → exec (.discardRnq w) s = .next (match left with
        | 2 :: l => { next l with port := { (next l).port with popBuffer := [] }, out := { s.out with rnq := [] } }
        | _ => taken .past))

/-- R193, R17, R194, R4 and R191: the first word of STATUS clears the sticky flags whose bits it sets, and the first
word of ATTN_MASK sets the mask; a later word, and a word that no register takes, changes none of them. The
rows of one STATUS word are taken in the order of its bits (log entry 8). -/
def Obligations.OrdinaryWritesActOnFirstWord : Prop :=
  ∀ (s : State) (t : Transaction) (w : Word),
    let taken := fun f : FirstWord =>
      { s with port := { s.port with miso := .word 0#32, transaction := some { t with first := f } } }
    (s.inTransaction 0x01#8 t →
      let parts := (if w.getLsbD 16 then [16] else []) ++ (if w.getLsbD 17 then [17] else [])
      let rows := (if w.getLsbD 16 then [Instr.clearFramingSticky w] else [])
        ++ (if w.getLsbD 17 then [.clearNoticeLostSticky w] else [])
      partsOf 0x01#7 w = parts
      ∧ (parts ≠ [] → writtenRows 0x01#7 w = rows)
      ∧ (parts ≠ [] → t.first = .awaited → s.afterRows rows = some { s with port := { s.port with
          miso := .word 0#32
          transaction := some { t with first := .past }
          framingSticky := s.port.framingSticky && !w.getLsbD 16
          noticeLostSticky := s.port.noticeLostSticky && !w.getLsbD 17 } })
      ∧ (∀ later : Word, t.first = .awaited →
          ((s.afterRows (writtenRows 0x01#7 w)).bind fun u => u.afterRows (writtenRows 0x01#7 later))
            = s.afterRows (writtenRows 0x01#7 w))
      ∧ ∀ left, t.first.left parts w = left →
        let next := fun l : List Nat => taken (if l = [] then .past else .acting w l)
        (w.getLsbD 16 = true → exec (.clearFramingSticky w) s = .next (match left with
          | 16 :: l => { next l with port := { (next l).port with framingSticky := false } }
          | _ => taken .past))
        ∧ (w.getLsbD 17 = true → exec (.clearNoticeLostSticky w) s = .next (match left with
          | 17 :: l => { next l with port := { (next l).port with noticeLostSticky := false } }
          | _ => taken .past)))
    ∧ (s.inTransaction 0x06#8 t → writtenRows 0x06#7 w = [.attnMaskWrite w]
      ∧ (t.first = .awaited → exec (.attnMaskWrite w) s = .next
        { taken .past with port := { (taken .past).port with attnMask := w.setWidth 4 } })
      ∧ (t.first ≠ .awaited → exec (.attnMaskWrite w) s = .next (taken .past)))
    ∧ ∀ index : BitVec 7,
      isIgnoredWrite index w = decide (index ≠ 0x06#7 ∧ index ≠ 0x08#7 ∧ index ≠ 0x09#7
        ∧ (index = 0x05#7 → w.extractLsb' 0 3 = 0#3) ∧ (index = 0x01#7 → w.extractLsb' 16 2 = 0#2))
      ∧ (isIgnoredWrite index w = true → s.inTransaction (index.setWidth 8) t →
        writtenRows index w = [.ignoredRegisterWrite index w] ∧ exec (.ignoredRegisterWrite index w) s = .next (taken .past))

/-- R1, R2, R3, R6, R17 and R192: a transaction begins with the status byte of that moment, carried on MISO, active when
ready is 1, and 0x00 while ready is 0; it ends with refused-last taking refused-now when its command byte was complete,
MISO at high impedance; a slot in progress goes with it. With CS_N high no word slot changes anything. The bits of a
byte and of a word go most significant first: the first eight of a transaction are its command byte, every 32 after them
a word slot with that word's rows, and fewer than 32 at its end spell nothing (log entry 6). -/
def Obligations.TransactionBeginsAndEnds : Prop :=
  (∀ (s : State),
    (∀ command, s.port.transaction = none → exec (.transactionStart command) s = .next
      { s with port := { s.port with
        transaction := some ⟨s.power.ready, s.linkStatus, command, .awaited, none⟩
        miso := .byte s.linkStatus } })
    ∧ (∀ t b, s.port.transaction = some t → t.command = some b → exec .transactionEnd s = .next
      { s with port := { s.port with
        transaction := none, miso := .highImpedance, refusedLast := s.port.refusedNow, refusedNow := false } })
    ∧ (∀ t, s.port.transaction = some t → t.command = none → exec .transactionEnd s = .next
      { s with port := { s.port with transaction := none, miso := .highImpedance } })
    ∧ (s.port.transaction = none → ∀ (w : Word) (index : BitVec 7) (phase : SlotPhase),
        ∀ c ∈ slotRows w index phase, exec c s = .next s)
    ∧ (s.power.ready = true →
        s.linkStatus.getLsbD 0 = !s.out.rnq.isEmpty ∧ s.linkStatus.getLsbD 1 = decide (8 ≤ s.port.ciq.length)
        ∧ s.linkStatus.getLsbD 2 = s.port.refusedLast ∧ s.linkStatus.getLsbD 3 = decide (s.trip.permit ≠ .permitted)
        ∧ s.linkStatus.getLsbD 4 = !s.ledger.records.isEmpty ∧ s.linkStatus.getLsbD 5 = true
        ∧ s.linkStatus.getLsbD 6 = s.port.framingSticky ∧ s.linkStatus.getLsbD 7 = s.attention
        ∧ s.attention = (s.port.attnMask.getLsbD 0 && !s.out.rnq.isEmpty
          || s.port.attnMask.getLsbD 1 && decide (s.trip.permit ≠ .permitted)
          || s.port.attnMask.getLsbD 2 && !s.ledger.records.isEmpty
          || s.port.attnMask.getLsbD 3 && (s.port.framingSticky || s.port.noticeLostSticky || s.ledger.lost)))
    ∧ (s.power.ready = false → s.linkStatus = 0#8 ∧ s.attention = false))
  ∧ (∀ (b : Byte) (i : Nat), i < 8 → (byteBits b)[i]? = some (b.getLsbD (7 - i)) ∧ byteOfBits (byteBits b) = b)
  ∧ (∀ (w : Word) (i : Nat), i < 32 → (wordBits w)[i]? = some (w.getLsbD (31 - i)) ∧ wordOfBits (wordBits w) = w)
  ∧ (∀ (c : Byte) (words : List Word) (rest : List Bool), rest.length < 32 →
      transactionRows (byteBits c ++ words.flatMap wordBits ++ rest)
        = [.transactionStart (some c)] ++ words.flatMap (slotRow c) ++ [.transactionEnd])
  ∧ (∀ bits : List Bool, bits.length < 8 → transactionRows bits = [.transactionStart none, .transactionEnd])
  ∧ ∀ (c : Byte) (w : Word), slotRow c w = if c.getLsbD 7 then readRows (c.setWidth 7) else writtenRows (c.setWidth 7) w

/-- R6 and R1: in a transaction that began before ready was 1, no word slot changes anything but the transaction's own
progress and MISO. A row that ends a word slot of the register that it addresses, a written word or the end of a read
slot, leaves 0 on MISO, and every other row leaves MISO as it is. Which word writes a bit of LINK_CTRL or STATUS, and
that a word that none of the other rows takes is ignored, is by R16, R191 and R193; the rows of bits and of read
phases are the model's (log entries 7 and 8). -/
def Obligations.NotReadySlotsChangeNothing : Prop :=
  ∀ (s : State) (t : Transaction) (w : Word) (index : BitVec 7) (phase : SlotPhase),
    s.port.transaction = some t → t.active = false → (∀ x ∈ t.slot, x = ⟨0#32, .void⟩) →
      -- the row ends a word slot of the register that the transaction addresses
      let ends := fun c : Instr => match c with
        | .pushHead _ => t.command = some 0x08#8
        | .pushBody _ => t.command = some 0x09#8
        | .popHead p => t.command = some 0x8A#8 ∧ p = .completes
        | .popBody p => t.command = some 0x8B#8 ∧ p = .completes
        | .linkCountsRead p => t.command = some 0x84#8 ∧ p = .completes
        | .discardAssembly x => t.command = some 0x05#8 ∧ x.getLsbD 0 = true
        | .discardCiq x => t.command = some 0x05#8 ∧ x.getLsbD 1 = true
        | .discardRnq x => t.command = some 0x05#8 ∧ x.getLsbD 2 = true
        | .clearFramingSticky x => t.command = some 0x01#8 ∧ x.getLsbD 16 = true
        | .clearNoticeLostSticky x => t.command = some 0x01#8 ∧ x.getLsbD 17 = true
        | .attnMaskWrite _ => t.command = some 0x06#8
        | .ignoredRegisterWrite i x => t.command = some (0#1 ++ i) ∧ i ≠ 6#7 ∧ i ≠ 8#7 ∧ i ≠ 9#7
            ∧ (i = 5#7 → x.extractLsb' 0 3 = 0#3) ∧ (i = 1#7 → x.extractLsb' 16 2 = 0#2)
        | _ => False
      ∀ c ∈ slotRows w index phase, ∃ u m, exec c s = .next { s with port := { s.port with transaction := some u, miso := m } }
        ∧ (ends c → m = .word 0#32) ∧ (¬ends c → m = s.port.miso)
        ∧ u.active = false ∧ u.status = t.status ∧ u.command = t.command ∧ ∀ x ∈ u.slot, x = ⟨0#32, .void⟩

/-! ### Power and reset (R6, R18, R57, R187, R190) -/

/-- R187, R190, R57, R6, R35 and R158: a power-on reset, RST_N going low and a loss of VDD leave every piece of state at
its power-on value, ready 0, every OUT pin OPEN and ATTN_N released. What belongs to the surroundings stays: the level
at every pin, the other of VDD and RST_N, and a transaction in progress, which is aborted and carries 0 on MISO for the
rest of it (log entry 29). The values are taken at the start of the hold (log entry 13). The reset cause is POWER after
a power-on reset and PIN when RST_N goes low; that RST_N going high ends its reset, which is then the cause, and that a
loss of VDD keeps the cause, is the model's (log entry 25). -/
def Obligations.ResetsGivePowerOnValues : Prop :=
  ∀ (s : State),
    (∀ c ∈ [Instr.powerOnReset, .rstnReset, .vddLoss], ∃ t, exec c s = .next t
      ∧ t.pending = s.pending ∧ t.quiet ∧ t.linkStatus = 0#8 ∧ t.attention = false
      ∧ (∀ n : Fin 12, t.pinLevel n = .opened)
      ∧ t.port.transaction = (s.port.transaction.map fun u => { u with active := false, slot := none })
      ∧ t.port.miso = (match s.port.miso with
        | .highImpedance => .highImpedance
        | .byte _ => .byte 0#8
        | .word _ => .word 0#32)
      ∧ (∀ p : Fin 12, t.inputs.count[p] = ⟨s.inputs.count[p].pin, s.inputs.count[p].pin, none⟩)
      ∧ (∀ n : Fin 8, t.inputs.din[n] =
          ⟨⟨s.inputs.din[n].input.pin, s.inputs.din[n].input.pin, none⟩, 2#2, false⟩)
      ∧ t.safety.tripIn = ⟨⟨s.safety.tripIn.input.pin, s.safety.tripIn.input.pin, none⟩, false⟩
      ∧ (∀ b : Fin 3, t.safety.ovl[b] = ⟨⟨s.safety.ovl[b].input.pin, s.safety.ovl[b].input.pin, none⟩, false⟩)
      ∧ t.safety.supplyOk = ⟨⟨s.safety.supplyOk.input.pin, s.safety.supplyOk.input.pin, none⟩, false⟩
      ∧ t.power = {
          vddGood := if c = .powerOnReset then true else if c = .vddLoss then false else s.power.vddGood
          rstnLow := if c = .rstnReset then true else s.power.rstnLow
          ready := false
          cause := if c = .powerOnReset then .power else if c = .rstnReset then .pin else s.power.cause })
    ∧ (s.power.rstnLow = true →
        exec .rstnRelease s = .next { s with power := { s.power with rstnLow := false, cause := .pin } })
    ∧ (s.power.rstnLow = false → exec .rstnRelease s = .next s)

/-- R6, R57 and R161: at the end of initialisation every filtered level is taken from its pin with no
candidate, ready becomes 1, and a safety input at its active level owes its assertion to the first instant. -/
def Obligations.InitialisationSettlesInputs : Prop :=
  ∀ (s : State), s.initialising = true → ∃ t, exec .initialisationComplete s = .next t
    ∧ t = { s with power := { s.power with ready := true }, inputs := t.inputs, safety := t.safety }
    ∧ t.inputs.restarted = s.inputs.restarted
    ∧ (∀ p : Fin 12, t.inputs.count[p] = ⟨s.inputs.count[p].pin, s.inputs.count[p].pin, none⟩)
    ∧ (∀ n : Fin 8, t.inputs.din[n] =
        ⟨⟨s.inputs.din[n].input.pin, s.inputs.din[n].input.pin, none⟩, s.inputs.din[n].code, s.inputs.din[n].invert⟩)
    ∧ t.safety.tripIn = ⟨⟨s.safety.tripIn.input.pin, s.safety.tripIn.input.pin, none⟩,
        s.safety.tripIn.input.pin == s.trip.config.tripInActiveHigh⟩
    ∧ (∀ b : Fin 3, t.safety.ovl[b] =
        ⟨⟨s.safety.ovl[b].input.pin, s.safety.ovl[b].input.pin, none⟩, s.safety.ovl[b].input.pin⟩)
    ∧ t.safety.supplyOk =
        ⟨⟨s.safety.supplyOk.input.pin, s.safety.supplyOk.input.pin, none⟩, !s.safety.supplyOk.input.pin⟩

/-- R18, R37, R57, R77, R105, R124, R137, R158, R177 and R190: the state right after a power-on reset. -/
def Obligations.PowerOnStateHoldsResetValues : Prop :=
  State.reset.pending = [] ∧ State.reset.quiet ∧ State.reset.power.ready = false
    ∧ State.reset.power.cause = .power ∧ State.reset.port.ciq = [] ∧ State.reset.port.attnMask = 0#4
    ∧ State.reset.out.rnq = [] ∧ State.reset.out.ordinal = 0#16 ∧ State.reset.trip.permit = .withheld
    ∧ State.reset.trip.config.policy = .freeze ∧ State.reset.trip.last = none ∧ State.reset.ledger.records = []
    ∧ State.reset.sealLevel = 0#2 ∧ State.reset.linkStatus = 0#8
    ∧ (∀ k : Fin 6, (State.reset.chan k).state = .off ∧ (State.reset.chan k).value = 0#32
        ∧ (State.reset.chan k).active = (State.reset.chan k).staged ∧ (State.reset.chan k).active.mode = .off
        ∧ (State.reset.chan k).active.final = 1#31 ∧ (State.reset.chan k).active.countFilter = 1#2)
    ∧ (∀ n : Fin 12, (State.reset.line n).owner = .nobody ∧ (State.reset.line n).safe = .opened
        ∧ State.reset.pinLevel n = .opened)
    ∧ (∀ j : Fin 6, (State.reset.pair j).paired = false ∧ (State.reset.pair j).gap = 10#8)
    ∧ ∀ n : Fin 8, (State.reset.dinPin n).code = 2#2 ∧ (State.reset.dinPin n).invert = false

/-! ### The Command Engine (R20 to R25, R34 to R36) -/

/-- R20, R21 steps 1 to 5, R185, R67 and section 2.8: the kind, body length, channel form, modifier bits, seal level
and refusal body of every command; and an unassigned kind, a wrong length, a wrong channel field, an undefined
modifier bit and a frozen command are answered with their codes in that order, and nothing else changes. -/
def Obligations.HeaderChecksRefuseInOrder : Prop :=
  commandForms =
    [(.ping, ⟨0x01#8, none, .device, 0#9, none, []⟩), (.identify, ⟨0x02#8, some 0, .device, 0#9, none, []⟩),
     (.readStatus, ⟨0x03#8, some 0, .device, 0#9, none, []⟩), (.setInputs, ⟨0x18#8, some 1, .device, 0#9, some 3, []⟩),
     (.readInputs, ⟨0x19#8, some 0, .device, 0#9, none, []⟩), (.stageMode, ⟨0x20#8, some 1, .channel, 0#9, none, []⟩),
     (.stageTargets, ⟨0x21#8, some 2, .channel, 0#9, none, []⟩), (.stageTerms, ⟨0x22#8, some 2, .channel, 0#9, none, []⟩),
     (.stageGuard, ⟨0x23#8, some 2, .channel, 0#9, none, []⟩), (.commit, ⟨0x24#8, some 1, .device, 0#9, none, [0x00000F0F#32]⟩),
     (.readConfig, ⟨0x25#8, some 0, .channel, 0x001#9, none, []⟩), (.stageMark, ⟨0x28#8, some 2, .channel, 0x007#9, none, []⟩),
     (.clearMarks, ⟨0x29#8, some 0, .channel, 0#9, none, []⟩), (.readMarks, ⟨0x2A#8, some 0, .channel, 0x00F#9, none, []⟩),
     (.start, ⟨0x30#8, some 1, .device, 0#9, none, []⟩), (.restart, ⟨0x31#8, some 1, .device, 0#9, none, []⟩),
     (.quench, ⟨0x32#8, some 1, .device, 0#9, none, []⟩), (.halt, ⟨0x33#8, some 1, .device, 0#9, none, []⟩),
     (.readChannel, ⟨0x34#8, some 0, .channel, 0#9, none, []⟩), (.readCaptures, ⟨0x38#8, some 0, .channel, 0#9, none, []⟩),
     (.readRate, ⟨0x39#8, some 0, .channel, 0#9, none, []⟩), (.bindLine, ⟨0x40#8, some 1, .device, 0#9, some 3, []⟩),
     (.unbindLine, ⟨0x41#8, some 1, .device, 0#9, some 3, []⟩), (.shapeLine, ⟨0x42#8, some 1, .device, 0#9, some 2, []⟩),
     (.shapePair, ⟨0x43#8, some 1, .device, 0#9, some 2, []⟩), (.driveLines, ⟨0x44#8, some 1, .device, 0#9, none, []⟩),
     (.readLines, ⟨0x45#8, some 0, .device, 0#9, none, []⟩), (.setTrip, ⟨0x48#8, some 2, .device, 0#9, some 1, []⟩),
     (.trip, ⟨0x49#8, some 0, .device, 0#9, none, []⟩), (.resume, ⟨0x4A#8, some 0, .device, 0#9, none, []⟩),
     (.readTrip, ⟨0x4B#8, some 0, .device, 0#9, none, []⟩), (.readFaults, ⟨0x50#8, some 0, .device, 0x00F#9, none, []⟩),
     (.ackFault, ⟨0x51#8, some 0, .device, 0#9, none, []⟩), (.sealRaise, ⟨0x52#8, some 0, .device, 0x003#9, none, []⟩),
     (.engineReset, ⟨0x53#8, some 0, .device, 0#9, none, []⟩)]
  ∧ assignedKinds = commandForms.map (fun p => p.2.kind)
  ∧ ∀ (s : State) (m : Message) (rest : List Message), s.takes m rest →
    (headKind m.head ∉ assignedKinds → exec .unknownKind s = .next (s.answered m rest .unknownKind []))
    ∧ ∀ p ∈ commandForms, headKind m.head = p.2.kind →
      let wrongLength := p.2.length.any (· != m.body.length)
      let wrongChannel := match p.2.channel with
        | .device => headChannel m.head != 15#4
        | .channel => decide (6 ≤ (headChannel m.head).toNat)
      let wrongModifier := headModifier m.head &&& ~~~p.2.modifierMask != 0#9
      let frozen := p.2.sealedFrom.any (· ≤ s.sealLevel.toNat)
      (wrongLength = true → exec p.1 s = .next (s.answered m rest .badLength p.2.refusalBody))
      ∧ (wrongLength = false → wrongChannel = true → exec p.1 s = .next (s.answered m rest .badChannel p.2.refusalBody))
      ∧ (wrongLength = false → wrongChannel = false → wrongModifier = true →
          exec p.1 s = .next (s.answered m rest .badValue p.2.refusalBody))
      ∧ (wrongLength = false → wrongChannel = false → wrongModifier = false → frozen = true →
          exec p.1 s = .next (s.answered m rest .sealed p.2.refusalBody))

/-- R23: the row of a command has no step while the RNQ is full, the CIQ is empty, or the message at the front
is of another kind (log entry 1). -/
def Obligations.CommandRowsWaitForTheirMessage : Prop :=
  ∀ (s : State), ∀ p ∈ commandForms,
    (s.port.ciq = [] ∨ 32 ≤ s.out.rnq.length ∨ ∃ m rest, s.port.ciq = m :: rest ∧ headKind m.head ≠ p.2.kind) →
      exec p.1 s = .next s

/-- R21, R22 and R34: the result codes; the head of every reply has kind 0x80, the tag and channel of its command, the
body's length and the result code; PING answers DONE with its own body and changes nothing. -/
def Obligations.RepliesEchoTagAndChannel : Prop :=
  (([.done, .unknownKind, .badLength, .badChannel, .badValue, .wrongState, .sealed, .lineTaken, .causePresent,
      .nothingPending, .partly] : List ResultCode).map ResultCode.code
    = [0#9, 1#9, 2#9, 3#9, 4#9, 5#9, 6#9, 7#9, 8#9, 9#9, 10#9])
  ∧ (∀ (m : Message) (code : ResultCode) (body : List Word), body.length ≤ 7 →
    let h := (replyMessage m ⟨code, body⟩).head
    headKind h = 0x80#8 ∧ headTag h = headTag m.head ∧ headChannel h = headChannel m.head
      ∧ (headLength h).toNat = body.length ∧ headModifier h = code.code ∧ (replyMessage m ⟨code, body⟩).body = body)
    ∧ ∀ (s : State) (m : Message) (rest : List Message), s.takes m rest → m.isCommand 0x01#8 15#4 0#9 →
      exec .ping s = .next (s.answered m rest .done m.body)

/-- R20, R22, R23, R32, R38, R48, R97, R133, R148, R161 and R166, with log entries 2, 3, 11, 12, 14, 15, 30 and 31: when no
command waits, the part is ready to take a message and owes no assertion, its next two steps answer the message at the front of
the CIQ: one reply of kind 0x80 with its tag and channel stands last in the RNQ. When no message can be taken and
nothing is due, the part stays as it is, with no instant in progress. Every pin has its resolved level again once the
instant in progress has ended. Otherwise time passes: the next instant is that of the least time which a candidate, a
timer or an assertion owed still has to wait; every timer counts down by that time, but the stall and window timers of a
frozen channel, which wait for nothing and keep their time; and the occurrences of the instant wait in the order of R32.
That the next instant is the one of the least time, and that every timer counts down by exactly that time, rests on the
exact durations of log entry 3 and is the model's; so are the masks of the acceptances (log entry 14), which take in
all the pins of an instant of its own (log entry 31). -/
def Obligations.IdlePartAnswersNextMessage : Prop :=
  ([0#2, 1#2, 2#2, 3#2].map dinFilterTime = [0, 200, 2000, 20000])
  ∧ (∀ (s : State), s.pending = [] → s.initialising = false →
    let idle := { s with inputs := { s.inputs with restarted := 0#12 }, instant := none }
    (∀ (m : Message) (rest : List Message), s.owesAssertion = false → s.takes m rest →
      ∃ t u r, step s = .next t ∧ step t = .next u ∧ u.pending = [] ∧ u.out.rnq.getLast? = some r
        ∧ headKind r.head = 0x80#8 ∧ headTag r.head = headTag m.head ∧ headChannel r.head = headChannel m.head
        ∧ (u.port.ciq = rest ∨ u.port.ciq = []))
    ∧ ((s.port.ciq = [] ∨ 32 ≤ s.out.rnq.length) → s.untilDue = none → step s = .next idle)
    ∧ (s.power.ready = true → ∃ t, step s = .next t ∧ (∀ n : Fin 12, t.pinLevel n = s.resolvedPin n)
      ∧ (t.instant = none ∨ ∃ held, t.instant = some held ∧ ∀ n : Fin 12, held[n] = s.resolvedPin n)))
  ∧ ∀ (s : State),
    let counted := fun p : Fin 12 =>
      let k := channelOfPin p
      countFilterTime
        (s.chan (if p.val % 4 = 2 ∧ (s.chan (partner k)).active.mode = .span then partner k else k)).active.countFilter
    let waits := fun x : Nat =>
      (∃ p h, (s.countPin p).held = some h ∧ x = counted p - h)
      ∨ (∃ n h, (s.dinPin n).input.held = some h ∧ x = dinFilterTime (s.dinPin n).code - h)
      ∨ (∃ i : SafetyInput, (i = s.safety.tripIn ∨ (∃ b : Fin 3, i = s.safety.ovl[b]) ∨ i = s.safety.supplyOk)
          ∧ (i.owed = true ∧ x = 0 ∨ i.owed = false ∧ ∃ h, i.input.held = some h ∧ x = 4 - h))
      ∨ s.trip.watchLeft = some x ∨ (∃ n, (s.line n).pulseLeft = some x) ∨ (∃ j, (s.pair j).gapLeft = some x)
      ∨ ∃ k, s.frozen k = false ∧ ((s.chan k).stallLeft = some x ∨ ∃ l, (s.chan k).windowLeft = some ⟨x, l⟩)
    (s.untilDue = none ↔ ∀ x, ¬waits x)
    ∧ ∀ d, (s.untilDue = some d ↔ waits d ∧ ∀ x, waits x → d ≤ x)
      ∧ (s.untilDue = some d → s.pending = [] → s.initialising = false →
        s.owesAssertion = true ∨ s.port.ciq = [] ∨ 32 ≤ s.out.rnq.length →
        let later := fun i : FilteredInput => { i with held := i.held.map (· + d) }
        let row := fun (b : Bool) (c : Instr) => if b then [c] else []
        let at4 := fun i : FilteredInput => i.held.any fun h => decide (4 ≤ h)
        ∃ t, step s = .next t
        ∧ t = { s with
            pending := t.pending, inputs := t.inputs, safety := t.safety, channels := t.channels
            matrix := { s.matrix with lines := t.matrix.lines, pairs := t.matrix.pairs }
            trip := { s.trip with watchLeft := s.trip.watchLeft.map (· - d) }, instant := t.instant }
        ∧ t.instant.isSome = true ∧ t.inputs.restarted = 0#12
        ∧ (∀ p : Fin 12, t.countPin p = later (s.countPin p))
        ∧ (∀ n : Fin 8, t.dinPin n = { s.dinPin n with input := later (s.dinPin n).input })
        ∧ t.safety.tripIn = ⟨later s.safety.tripIn.input, s.safety.tripIn.owed⟩
        ∧ (∀ b : Fin 3, t.safety.ovl[b] = ⟨later s.safety.ovl[b].input, s.safety.ovl[b].owed⟩)
        ∧ t.safety.supplyOk = ⟨later s.safety.supplyOk.input, s.safety.supplyOk.owed⟩
        ∧ (∀ n : Fin 12, t.line n = { s.line n with pulseLeft := (s.line n).pulseLeft.map (· - d) })
        ∧ (∀ j : Fin 6, t.pair j = { s.pair j with gapLeft := (s.pair j).gapLeft.map (· - d) })
        ∧ (∀ k : Fin 6, t.chan k = if s.frozen k then s.chan k else { s.chan k with
            stallLeft := (s.chan k).stallLeft.map (· - d)
            windowLeft := (s.chan k).windowLeft.map fun x => ⟨x.left - d, x.length⟩ })
        ∧ ∃ counts dins,
          (∀ p : Fin 12, counts.getLsbD p.val = (t.countPin p).held.any fun h => decide (counted p ≤ h))
          ∧ (∀ n : Fin 8, dins.getLsbD n.val =
              (t.dinPin n).input.held.any fun h => decide (dinFilterTime (t.dinPin n).code ≤ h))
          ∧ t.pending =
            -- 1: causes asserting
            row (t.safety.tripIn.owed || at4 t.safety.tripIn.input
                && (t.safety.tripIn.input.filtered != s.trip.config.tripInActiveHigh)) .tripInAssert
            ++ ([0, 1, 2] : List (Fin 3)).flatMap (fun b => row (t.safety.ovl[b].owed
                || at4 t.safety.ovl[b].input && !t.safety.ovl[b].input.filtered) (.overloadAssert b))
            ++ row (t.safety.supplyOk.owed || at4 t.safety.supplyOk.input && t.safety.supplyOk.input.filtered) .supplyLoss
            -- 2: timers
            ++ ([0, 1, 2, 3, 4, 5, 6, 7, 8, 9, 10, 11] : List (Fin 12)).flatMap (fun n =>
                row ((t.line n).pulseLeft == some 0) (.pulseEnd n))
            ++ ([0, 1, 2, 3, 4, 5] : List (Fin 6)).flatMap (fun j => row ((t.pair j).gapLeft == some 0) (.gapEnd j))
            ++ ([0, 1, 2, 3, 4, 5] : List (Fin 6)).flatMap (fun k =>
                row ((t.chan k).stallLeft == some 0 && !s.frozen k) (.stallExpiry k))
            ++ row (t.trip.watchLeft == some 0) .watchExpiry
            -- 3 and 4: count inputs, then DINs
            ++ row (counts != 0#12) (.countFilterAccept counts) ++ row (dins != 0#8) (.dinFilterAccept dins)
            -- 5: windows
            ++ ([0, 1, 2, 3, 4, 5] : List (Fin 6)).flatMap (fun k =>
                row ((t.chan k).windowLeft.any fun x => x.left == 0) (.windowEnd k))
            -- 6: causes releasing
            ++ row (!t.safety.tripIn.owed && at4 t.safety.tripIn.input
                && (t.safety.tripIn.input.filtered == s.trip.config.tripInActiveHigh)) .tripInRelease
            ++ ([0, 1, 2] : List (Fin 3)).flatMap (fun b => row (!t.safety.ovl[b].owed
                && at4 t.safety.ovl[b].input && t.safety.ovl[b].input.filtered) (.overloadRelease b))
            ++ row (!t.safety.supplyOk.owed && at4 t.safety.supplyOk.input && !t.safety.supplyOk.input.filtered) .supplyReturn)

/-- R35, R36, R56, R66, R101, R110, R135, R157 and R174: the commands that read change nothing; they answer
DONE with the body of their rule. READ_MARKS and READ_RATE are not for a LENT channel. -/
def Obligations.ReadCommandsOnlyAnswer : Prop :=
  ∀ (s : State) (m : Message) (rest : List Message) (k : Fin 6), s.takes m rest → m.body = [] →
    (m.isCommand 0x02#8 15#4 0#9 → exec .identify s = .next (s.answered m rest .done s.identifyBody))
    ∧ (m.isCommand 0x03#8 15#4 0#9 → exec .readStatus s = .next (s.answered m rest .done s.readStatusBody))
    ∧ (m.isCommand 0x19#8 15#4 0#9 → exec .readInputs s = .next (s.answered m rest .done s.readInputsBody))
    ∧ (m.isCommand 0x25#8 (channelField k) 0#9 →
        exec .readConfig s = .next (s.answered m rest .done ((s.chan k).readConfigBody (s.chan k).staged)))
    ∧ (m.isCommand 0x25#8 (channelField k) 1#9 →
        exec .readConfig s = .next (s.answered m rest .done ((s.chan k).readConfigBody (s.chan k).active)))
    ∧ (m.isCommand 0x34#8 (channelField k) 0#9 →
        exec .readChannel s = .next (s.answered m rest .done (s.readChannelBody k)))
    ∧ (m.isCommand 0x45#8 15#4 0#9 → exec .readLines s = .next (s.answered m rest .done s.readLinesBody))
    ∧ (m.isCommand 0x4B#8 15#4 0#9 → exec .readTrip s = .next (s.answered m rest .done s.readTripBody))
    ∧ ((s.chan k).state ≠ .lent →
        (∀ f : BitVec 9, f &&& 0x1F0#9 = 0#9 → m.isCommand 0x2A#8 (channelField k) f →
          exec .readMarks s = .next (s.answered m rest .done ((s.chan k).readMarksBody m)))
        ∧ (m.isCommand 0x39#8 (channelField k) 0#9 →
          exec .readRate s = .next (s.answered m rest .done (s.readRateBody k))))
    ∧ ((s.chan k).state = .lent →
        (∀ f : BitVec 9, f &&& 0x1F0#9 = 0#9 → m.isCommand 0x2A#8 (channelField k) f →
          exec .readMarks s = .next (s.answered m rest .wrongState []))
        ∧ (m.isCommand 0x39#8 (channelField k) 0#9 → exec .readRate s = .next (s.answered m rest .wrongState [])))

/-- R35, R36, R56, R80, R157 and R174: the codes of the channel states, and the words of IDENTIFY, READ_STATUS,
READ_INPUTS, READ_LINES and READ_TRIP, field by field. The ledger holds at most 16 records, the RNQ at most 24 notices,
and the watch at most 255 units. That an assertion still owed after initialisation is not yet present is log entry 12.
-/
def Obligations.StatusWordsReportTheState : Prop :=
  (([.off, .idle, .armed, .running, .quenched, .complete, .faulted, .lent] : List ChannelState).map ChannelState.code
    = [0#4, 1#4, 2#4, 3#4, 4#4, 5#4, 6#4, 7#4])
  ∧
  (∀ (s : State), s.ledger.records.length ≤ 16 → s.out.noticeCount ≤ 24 →
    s.identifyBody = [0x00010612#32, 0x080C0600#32 ||| (if s.power.cause = .power then 1#32 else 2#32)]
    ∧ ∃ w0 w1 w2 w3, s.readStatusBody = [w0, w1, w2, w3]
      ∧ (∀ k : Fin 6, w0.extractLsb' (4 * k.val) 4 = (s.chan k).state.code ∧ w0.getLsbD (24 + k.val) = (s.chan k).commitPending)
      ∧ w0.extractLsb' 30 2 = 0#2
      ∧ w1.extractLsb' 0 2 = s.trip.permit.code ∧ w1.extractLsb' 2 2 = s.sealLevel
      ∧ (w1.extractLsb' 4 5).toNat = s.ledger.records.length ∧ w1.getLsbD 9 = s.ledger.lost
      ∧ w1.extractLsb' 10 2 = 0#2 ∧ (∀ b : Fin 3, w1.getLsbD (12 + b.val) = s.matrix.shut[b])
      ∧ w1.getLsbD 15 = s.supplyLost ∧ w1.extractLsb' 16 16 = 0#16
      ∧ w2 = s.out.lostSafety ++ s.out.lostData ++ s.out.lostRun ++ s.out.lostMark
      ∧ w3.extractLsb' 0 16 = s.out.ordinal ∧ w3.extractLsb' 16 8 = s.out.sequence
      ∧ (w3.extractLsb' 24 5).toNat = s.out.noticeCount ∧ w3.extractLsb' 29 3 = 0#3)
  ∧ (∀ (s : State), ∃ w0 w1 w2, s.readInputsBody = [w0, w1, w2]
      ∧ (∀ n : Fin 8, w0.getLsbD n.val = (s.dinPin n).input.filtered
          ∧ w0.getLsbD (8 + n.val) = ((s.dinPin n).input.filtered ^^ (s.dinPin n).invert))
      ∧ w0.extractLsb' 16 16 = 0#16
      ∧ (∀ p : Fin 12, w1.getLsbD p.val = (s.countPin p).filtered) ∧ w1.extractLsb' 12 20 = 0#20
      ∧ (∀ k : Fin 6, w2.getLsbD (5 * k.val) = (s.chan k).gateOpen ∧ w2.getLsbD (5 * k.val + 1) = (s.chan k).heldStart
          ∧ w2.getLsbD (5 * k.val + 2) = (s.chan k).heldQuench ∧ w2.getLsbD (5 * k.val + 3) = (s.chan k).heldRestart
          ∧ w2.getLsbD (5 * k.val + 4) = (s.chan k).heldResync)
      ∧ w2.extractLsb' 30 2 = 0#2)
  ∧ (∀ (s : State), ∃ w0 w1 w2 w3 w4 w5 w6, s.readLinesBody = [w0, w1, w2, w3, w4, w5, w6]
      ∧ (∀ n : Fin 12, (if n.val < 8 then w0.extractLsb' (4 * n.val) 4 else w1.extractLsb' (4 * (n.val - 8)) 4) =
          match (s.line n).owner with
          | .nobody => 15#4
          | .host => 8#4
          | .channel k => BitVec.ofNat 4 k.val)
      ∧ (∀ n : Fin 12, w1.getLsbD (16 + n.val) = (s.line n).active) ∧ w1.extractLsb' 28 4 = 0#4
      ∧ (∀ n : Fin 12, w2.extractLsb' (2 * n.val) 2 =
          match s.resolvedPin n with
          | .low => 0#2
          | .high => 1#2
          | .opened => 2#2)
      ∧ (∀ b : Fin 3, w2.getLsbD (24 + b.val) = s.matrix.shut[b]) ∧ w2.getLsbD 27 = s.supplyLost ∧ w2.extractLsb' 28 4 = 0#4
      ∧ (∀ n : Fin 12, w3.getLsbD n.val = (s.line n).inverted ∧ w3.getLsbD (12 + n.val) = (s.line n).pulseLeft.isSome)
      ∧ (∀ j : Fin 6, w3.getLsbD (24 + j.val) = (s.pair j).paired) ∧ w3.extractLsb' 30 2 = 0#2
      ∧ (∀ n : Fin 12, w4.extractLsb' (2 * n.val) 2 =
          match (s.line n).safe with
          | .opened => 0#2
          | .low => 1#2
          | .high => 2#2)
      ∧ (∀ j : Fin 6, w4.getLsbD (24 + j.val) = (s.pair j).gapLeft.isSome) ∧ w4.extractLsb' 30 2 = 0#2
      ∧ (∀ j : Fin 6, (if j.val < 4 then w5.extractLsb' (8 * j.val) 8 else w6.extractLsb' (8 * (j.val - 4)) 8) = (s.pair j).gap)
      ∧ w6.extractLsb' 16 16 = 0#16)
  ∧ ∀ (s : State), s.trip.watchLeft.getD 0 ≤ 255 * tenMilliseconds →
    let c := s.trip.config
    let tripIn := (s.safety.tripIn.input.filtered == c.tripInActiveHigh) && !s.safety.tripIn.owed
    let ovl := fun b : Fin 3 => s.safety.ovl[b].input.filtered && !s.safety.ovl[b].owed
    let supply := !s.safety.supplyOk.input.filtered && !s.safety.supplyOk.owed
    let faulted := fun k : Fin 6 => decide ((s.chan k).state = .faulted)
    ∃ w0 w1 w2 w3, s.readTripBody = [w0, w1, w2, w3]
      ∧ w0.extractLsb' 0 2 = (match s.trip.permit with | .withheld => 0#2 | .permitted => 1#2 | .tripped => 2#2)
      ∧ w0.getLsbD 2 = decide (∃ k : Fin 6, s.trip.permit = .tripped ∧ c.policy = .freeze ∧ (s.chan k).state.live = true)
      ∧ w0.getLsbD 3 = s.trip.watchLeft.isSome ∧ w0.getLsbD 4 = s.trip.hostLost ∧ w0.extractLsb' 5 3 = 0#3
      ∧ (w0.extractLsb' 8 8).toNat = (s.trip.watchLeft.getD 0 + (tenMilliseconds - 1)) / tenMilliseconds
      ∧ w0.getLsbD 16 = tripIn ∧ (∀ b : Fin 3, w0.getLsbD (17 + b.val) = ovl b) ∧ w0.getLsbD 20 = supply
      ∧ w0.getLsbD 21 = s.trip.hostLost ∧ (∀ k : Fin 6, w0.getLsbD (22 + k.val) = faulted k) ∧ w0.extractLsb' 28 4 = 0#4
      ∧ w1.getLsbD 0 = (tripIn && c.tripInEnable) ∧ (∀ b : Fin 3, w1.getLsbD (1 + b.val) = (ovl b && c.overloadEnable))
      ∧ w1.getLsbD 4 = (supply && c.supplyEnable) ∧ w1.getLsbD 5 = (s.trip.hostLost && decide (c.hostLoss = .trip))
      ∧ (∀ k : Fin 6, w1.getLsbD (6 + k.val) = (faulted k && s.trip.handed[k])) ∧ w1.extractLsb' 12 4 = 0#4
      ∧ (∀ k : Fin 6, w1.getLsbD (16 + k.val) = s.trip.handed[k]) ∧ w1.extractLsb' 22 10 = 0#10
      ∧ w2.getLsbD 0 = c.tripInEnable ∧ w2.getLsbD 1 = c.tripInActiveHigh ∧ w2.getLsbD 2 = c.overloadEnable
      ∧ w2.getLsbD 3 = c.supplyEnable ∧ w2.getLsbD 4 = decide (c.policy = .coast) ∧ w2.getLsbD 5 = decide (c.hostLoss = .trip)
      ∧ w2.extractLsb' 6 2 = 0#2
      ∧ w2.extractLsb' 8 3 = (match c.autoChannel with | some k => BitVec.ofNat 3 k.val | none => 7#3)
      ∧ w2.extractLsb' 11 5 = 0#5 ∧ w2.extractLsb' 16 8 = c.watch ∧ w2.extractLsb' 24 8 = 0#8
      ∧ w3 = match s.trip.last with
        | none => 0#32
        | some l => 0#9 ++ (match l.source with
            | .overload b => BitVec.ofNat 3 b.val
            | .channelFault k => BitVec.ofNat 3 k.val
            | .tripIn | .supply | .hostLost | .soft => 0#3) ++ 0#1 ++ (match l.source with
            | .tripIn => 1#3
            | .overload _ => 2#3
            | .supply => 3#3
            | .hostLost => 4#3
            | .soft => 5#3
            | .channelFault _ => 6#3) ++ l.ordinal

/-- R101, R110 and R135: the words of READ_CHANNEL (where the progress lies in the 32-bit range), READ_MARKS and
READ_RATE, field by field. That a frozen channel with no window in progress reads 0 in bit 7 of READ_RATE is the model's
choice (log entry 28). -/
def Obligations.ChannelWordsReportTheChannel : Prop :=
  (∀ (s : State) (k : Fin 6), (s.chan k).stallLeft.getD 0 ≤ 255 * tenMilliseconds →
    ∃ w0 w1 w2 w3, s.readChannelBody k = [w0, w1, w2, w3]
      ∧ w0.extractLsb' 0 4 = (s.chan k).state.code ∧ w0.getLsbD 4 = (s.chan k).commitPending
      ∧ w0.getLsbD 5 = (s.chan k).resyncPending ∧ w0.getLsbD 6 = (s.chan k).gateOpen
      ∧ w0.getLsbD 7 = ((s.chan k).stallLeft.isSome && !s.frozen k) ∧ w0.extractLsb' 8 8 = (s.chan k).phaseErrors
      ∧ w0.extractLsb' 16 16 = (s.chan k).cycleIndex ∧ w1 = (s.chan k).value
      ∧ (inRange ((s.chan k).active.progress (s.chan k).value) = true →
          w2.toInt = (s.chan k).active.progress (s.chan k).value)
      ∧ w3.extractLsb' 0 8 = (s.chan k).arming.bits ∧ w3.extractLsb' 8 8 = 0#8 ∧ w3.extractLsb' 24 8 = 0#8
      ∧ ((s.chan k).stallLeft = none → w3.extractLsb' 16 8 = 0#8)
      ∧ ∀ x, (s.chan k).stallLeft = some x →
          x ≤ (w3.extractLsb' 16 8).toNat * tenMilliseconds ∧ (w3.extractLsb' 16 8).toNat * tenMilliseconds < x + tenMilliseconds)
  ∧ (∀ (c : Channel) (m : Message),
      let active := (headModifier m.head).getLsbD 0
      let marks := if active then c.active.marks else c.staged.marks
      let first := ((headModifier m.head).extractLsb' 1 3).toNat
      let found := (marks.drop first).take 3
      marks.length ≤ 8 →
      ∃ w, c.readMarksBody m = w :: (found.map Mark.words).flatten
        ∧ (w.extractLsb' 0 4).toNat = marks.length ∧ (w.extractLsb' 4 3).toNat = first ∧ w.getLsbD 7 = false
        ∧ (w.extractLsb' 8 2).toNat = found.length ∧ w.extractLsb' 10 6 = 0#6
        ∧ w.extractLsb' 16 8 = (if active then c.arming.bits else 0#8) ∧ w.extractLsb' 24 8 = 0#8)
  ∧ (∀ m : Mark, ∃ w, m.words = [m.target, w]
      ∧ w.extractLsb' 0 4 = (match m.line with | some n => BitVec.ofNat 4 n.val | none => 15#4)
      ∧ w.extractLsb' 4 3 = (match m.action with
        | .nothing => 0#3
        | .set => 1#3
        | .clear => 2#3
        | .toggle => 3#3
        | .pulse => 4#3)
      ∧ w.getLsbD 7 = m.notify ∧ w.getLsbD 8 = m.capture ∧ w.getLsbD 9 = decide (m.crossing = .falling)
      ∧ w.extractLsb' 10 6 = 0#6 ∧ w.extractLsb' 16 16 = m.width)
  ∧ ∀ (s : State) (k : Fin 6), (s.chan k).ring.length ≤ 4 → (∀ x ∈ (s.chan k).windowLeft, x.left ≤ 1000 * millisecond) →
    let c := s.chan k
    let code := fun l : WindowLength => match l with | .w10 => 0#2 | .w100 => 1#2 | .w1000 => 2#2
    ∃ w0 w6, s.readRateBody k = [w0, c.accumulator, c.ring.getD 0 0#32, c.ring.getD 1 0#32, c.ring.getD 2 0#32, c.ring.getD 3 0#32, w6]
      ∧ (w0.extractLsb' 0 3).toNat = c.ring.length ∧ w0.getLsbD 3 = false
      ∧ w0.extractLsb' 4 2 = code (match c.windowLeft with | some x => x.length | none => c.active.window)
      ∧ w0.getLsbD 6 = (c.windowLeft.isSome && !s.frozen k) ∧ w0.getLsbD 7 = (c.windowLeft.isSome && s.frozen k)
      ∧ w0.extractLsb' 8 8 = 0#8 ∧ w0.extractLsb' 16 16 = c.windowCount
      ∧ w6.extractLsb' 0 16 = (if c.windowCount = 0#16 then 0#16 else c.lastWindowOrdinal)
      ∧ (w6.extractLsb' 16 10).toNat = (match c.windowLeft with | some x => (x.left + (millisecond - 1)) / millisecond | none => 0)
      ∧ w6.extractLsb' 26 6 = 0#6

/-! ### Configuration (Chapter 4, Chapter 6) -/

/-- R51 and R62 to R66: the words of STAGE_MODE, STAGE_TARGETS, STAGE_TERMS and STAGE_GUARD, the term descriptor and
word 0 of READ_CONFIG, bit by bit; and the body words that READ_CONFIG returns for a set, staged again, give back every
field of their group as it was, over any other staged set. -/
def Obligations.StagedFieldsReadBack : Prop :=
  (∀ c : ChannelConfig,
    modeWord c = 0#22 ++ BitVec.ofBool (c.order == .all) ++ BitVec.ofBool (c.reference == .toGo)
      ++ BitVec.ofBool (c.edge == .fall) ++ (match c.decode with
        | .step => 0#3
        | .stepDir => 1#3
        | .twoLine => 2#3
        | .quad1 => 3#3
        | .quad2 => 4#3
        | .quad4 => 5#3) ++ BitVec.ofBool (c.direction == .down) ++ (match c.mode with
        | .off => 0#3
        | .tally => 1#3
        | .span => 2#3
        | .loop => 3#3
        | .pace => 4#3)
    ∧ targetsWords c = [0#1 ++ c.final, 0#13 ++ BitVec.ofBool (c.endPolicy == .hold) ++ (match c.window with
        | .w10 => 0#2
        | .w100 => 1#2
        | .w1000 => 2#2) ++ c.repeats]
    ∧ termsWords c = [encodeTerm c.restartTerm ++ encodeTerm c.startTerm, encodeTerm c.resyncTerm ++ encodeTerm c.quenchTerm]
    ∧ guardWords c =
      [0#20 ++ c.countFilter ++ (match c.captureSource with | none => 0#3 | some x => BitVec.ofNat 3 x.din.val)
          ++ (match c.captureSource with
            | none => 0#2
            | some x => match x.edge with
              | .rise => 1#2
              | .fall => 2#2
              | .both => 3#2)
          ++ (match c.gate with
            | none => 0#5
            | some g => BitVec.ofBool g.inverted ++ BitVec.ofNat 3 g.din.val ++ 1#1),
       0#20 ++ BitVec.ofBool c.notifyState ++ BitVec.ofBool c.notifyRate ++ BitVec.ofBool c.notifyCycles
          ++ BitVec.ofBool c.faultTrips ++ c.stall])
  ∧ (∀ x : Term, x.refs.length ≤ 3 →
      let ref := fun i : Nat => match x.refs[i]? with
        | some r => BitVec.ofBool r.inverted ++ BitVec.ofNat 3 r.din.val
        | none => 0#4
      encodeTerm x = 0#1 ++ ref 2 ++ ref 1 ++ ref 0 ++ BitVec.ofBool (x.operator == .disj) ++ BitVec.ofNat 2 x.refs.length)
  ∧ (∀ (c : Channel) (x : ChannelConfig), x.marks.length ≤ 8 →
      c.readConfigBody x = (BitVec.ofBool c.commitPending ++ BitVec.ofBool (c.state == .lent) ++ 0#2
          ++ BitVec.ofNat 4 x.marks.length ++ 0#14 ++ (modeWord x).extractLsb' 0 10)
        :: (targetsWords x ++ termsWords x ++ guardWords x))
  ∧ ∀ (c d : ChannelConfig),
    withModeWord (modeWord c) d = some
      { d with
        mode := c.mode, direction := c.direction, decode := c.decode
        edge := c.edge, reference := c.reference, order := c.order }
    ∧ (c.final ≠ 0#31 → ∃ w0 w1, targetsWords c = [w0, w1] ∧ withTargetsWords w0 w1 d = some
      { d with final := c.final, repeats := c.repeats, window := c.window, endPolicy := c.endPolicy })
    ∧ (c.startTerm.wellFormed → c.restartTerm.wellFormed → c.quenchTerm.wellFormed → c.resyncTerm.wellFormed →
      ∃ w0 w1, termsWords c = [w0, w1] ∧ withTermsWords w0 w1 d = some
        { d with
          startTerm := c.startTerm, restartTerm := c.restartTerm
          quenchTerm := c.quenchTerm, resyncTerm := c.resyncTerm })
    ∧ (∃ w0 w1, guardWords c = [w0, w1] ∧ withGuardWords w0 w1 d = some
      { d with
        gate := c.gate, captureSource := c.captureSource, countFilter := c.countFilter, stall := c.stall
        faultTrips := c.faultTrips, notifyCycles := c.notifyCycles, notifyRate := c.notifyRate
        notifyState := c.notifyState })

/-- R108, R110 and R172: a mark record whose line and action agree, and a trip configuration with its
complement, read back as they were written. -/
def Obligations.MarkAndTripWordsReadBack : Prop :=
  (∀ m : Mark, (m.action = .nothing ↔ m.line = none) → ∃ w0 w1, m.words = [w0, w1] ∧ decodeMark w0 w1 = some m)
    ∧ ∀ c : TripConfig, decodeTrip (tripWord c) (~~~tripWord c) = some c

/-- R61: every staging command to a commit-pending channel is refused with WRONG_STATE, before its fields are
looked at, and changes nothing. -/
def Obligations.StagingWaitsForPendingCommit : Prop :=
  ∀ (s : State) (m : Message) (rest : List Message) (k : Fin 6), s.takes m rest → (s.chan k).commitPending = true →
    (m.isCommand 0x20#8 (channelField k) 0#9 → m.body.length = 1 → exec .stageMode s = .next (s.answered m rest .wrongState []))
    ∧ (m.isCommand 0x21#8 (channelField k) 0#9 → m.body.length = 2 → exec .stageTargets s = .next (s.answered m rest .wrongState []))
    ∧ (m.isCommand 0x22#8 (channelField k) 0#9 → m.body.length = 2 → exec .stageTerms s = .next (s.answered m rest .wrongState []))
    ∧ (m.isCommand 0x23#8 (channelField k) 0#9 → m.body.length = 2 → exec .stageGuard s = .next (s.answered m rest .wrongState []))
    ∧ (∀ i : BitVec 9, i.toNat < 8 → m.isCommand 0x28#8 (channelField k) i → m.body.length = 2 →
        exec .stageMark s = .next (s.answered m rest .wrongState []))
    ∧ (m.isCommand 0x29#8 (channelField k) 0#9 → m.body = [] → exec .clearMarks s = .next (s.answered m rest .wrongState []))

/-- R61 to R65 and R51: an accepted staging command replaces its group of fields in the staged set of its channel by
those that its body writes, and changes nothing else. A code out of range, a bit that must be 0, a term descriptor that
is not well formed and a final of 0 are refused with BAD_VALUE, and nothing changes. -/
def Obligations.StagingWritesItsGroup : Prop :=
  ∀ (s : State) (m : Message) (rest : List Message) (k : Fin 6) (c : ChannelConfig), s.takes m rest →
    (s.chan k).commitPending = false →
      let d := (s.chan k).staged
      let after := fun e => Host.Outcome.next (φ := Fault) (ρ := Refusal)
        (({ s with channels := s.channels.set k { s.chan k with staged := e } } : State).answered m rest .done [])
      let refused := Host.Outcome.next (φ := Fault) (ρ := Refusal) (s.answered m rest .badValue [])
      let badTerm := fun x : BitVec 16 => x.getLsbD 15 = true ∨ (x.extractLsb' 0 2 = 0#2 ∧ x.getLsbD 2 = true)
        ∨ ∃ i : Fin 3, (x.extractLsb' 0 2).toNat ≤ i.val ∧ x.extractLsb' (3 + 4 * i.val) 4 ≠ 0#4
      (m.isCommand 0x20#8 (channelField k) 0#9 → m.body = [modeWord c] → exec .stageMode s = after
        { d with
          mode := c.mode, direction := c.direction, decode := c.decode
          edge := c.edge, reference := c.reference, order := c.order })
      ∧ (m.isCommand 0x21#8 (channelField k) 0#9 → m.body = targetsWords c → c.final ≠ 0#31 → exec .stageTargets s = after
        { d with final := c.final, repeats := c.repeats, window := c.window, endPolicy := c.endPolicy })
      ∧ (m.isCommand 0x22#8 (channelField k) 0#9 → m.body = termsWords c → c.startTerm.wellFormed →
          c.restartTerm.wellFormed → c.quenchTerm.wellFormed → c.resyncTerm.wellFormed → exec .stageTerms s = after
        { d with
          startTerm := c.startTerm, restartTerm := c.restartTerm
          quenchTerm := c.quenchTerm, resyncTerm := c.resyncTerm })
      ∧ (m.isCommand 0x23#8 (channelField k) 0#9 → m.body = guardWords c → exec .stageGuard s = after
        { d with
          gate := c.gate, captureSource := c.captureSource, countFilter := c.countFilter, stall := c.stall
          faultTrips := c.faultTrips, notifyCycles := c.notifyCycles, notifyRate := c.notifyRate
          notifyState := c.notifyState })
      ∧ (∀ w : Word, m.isCommand 0x20#8 (channelField k) 0#9 → m.body = [w] →
          5 ≤ (w.extractLsb' 0 3).toNat ∨ 6 ≤ (w.extractLsb' 4 3).toNat ∨ w.extractLsb' 10 22 ≠ 0#22 → exec .stageMode s = refused)
      ∧ ∀ w0 w1 : Word, m.body = [w0, w1] →
        (m.isCommand 0x21#8 (channelField k) 0#9 → w0.extractLsb' 0 31 = 0#31 ∨ w0.getLsbD 31 = true
            ∨ w1.extractLsb' 16 2 = 3#2 ∨ w1.extractLsb' 19 13 ≠ 0#13 → exec .stageTargets s = refused)
        ∧ (m.isCommand 0x22#8 (channelField k) 0#9 → badTerm (w0.extractLsb' 0 16) ∨ badTerm (w0.extractLsb' 16 16)
            ∨ badTerm (w1.extractLsb' 0 16) ∨ badTerm (w1.extractLsb' 16 16) → exec .stageTerms s = refused)
        ∧ (m.isCommand 0x23#8 (channelField k) 0#9 → w0.extractLsb' 12 20 ≠ 0#20 ∨ w1.extractLsb' 12 20 ≠ 0#20
            ∨ (w0.getLsbD 0 = false ∧ w0.extractLsb' 1 4 ≠ 0#4) ∨ (w0.extractLsb' 5 2 = 0#2 ∧ w0.extractLsb' 7 3 ≠ 0#3) →
            exec .stageGuard s = refused)

/-- R108 and R109: STAGE_MARK replaces record i of the staged list or appends it at the end, and is refused
with BAD_VALUE beyond the end, and for a line of 12 to 14, an action of 5 to 7, a bit of 15..10, or a line without an
action or an action without a line; CLEAR_MARKS empties the list. Nothing else changes. -/
def Obligations.MarkListIsStaged : Prop :=
  ∀ (s : State) (m : Message) (rest : List Message) (k : Fin 6), s.takes m rest → (s.chan k).commitPending = false →
    let d := (s.chan k).staged
    let after := fun l => Host.Outcome.next (φ := Fault) (ρ := Refusal)
      (({ s with channels := s.channels.set k { s.chan k with staged := { d with marks := l } } } : State).answered m rest .done [])
    (∀ (i : BitVec 9) (r : Mark), i.toNat < 8 → m.isCommand 0x28#8 (channelField k) i → m.body = r.words →
        (r.action = .nothing ↔ r.line = none) →
        (i.toNat < d.marks.length → exec .stageMark s = after (d.marks.set i.toNat r))
        ∧ (i.toNat = d.marks.length → exec .stageMark s = after (d.marks ++ [r]))
        ∧ (d.marks.length < i.toNat → exec .stageMark s = .next (s.answered m rest .badValue [])))
    ∧ (∀ (i : BitVec 9) (w0 w1 : Word), i.toNat < 8 → m.isCommand 0x28#8 (channelField k) i → m.body = [w0, w1] →
        let line := (w1.extractLsb' 0 4).toNat
        let action := (w1.extractLsb' 4 3).toNat
        (12 ≤ line ∧ line ≤ 14) ∨ 5 ≤ action ∨ w1.extractLsb' 10 6 ≠ 0#6 ∨ (action = 0 ∧ line ≠ 15) ∨ (action ≠ 0 ∧ line = 15) →
          exec .stageMark s = .next (s.answered m rest .badValue []))
    ∧ (m.isCommand 0x29#8 (channelField k) 0#9 → m.body = [] → exec .clearMarks s = after [])

/-- R67 to R69 and R112 to R114: COMMIT is refused by the first failing check of the lowest-numbered failing channel, whose
number and mark its one body word names, and no channel is changed. Then the checks of one channel, in their order, each
with its code: 15 stands for no mark, and the mark checks name the first record that fails one of them. -/
def Obligations.CommitNamesFirstFailure : Prop :=
  (∀ (s : State) (m : Message) (rest : List Message) (w : Word), s.takes m rest → m.isCommand 0x24#8 15#4 0#9 →
    m.body = [w] →
      (w.extractLsb' 6 26 ≠ 0#26 ∨ w.extractLsb' 0 6 = 0#6 →
        exec .commit s = .next (s.answered m rest .badValue [0x00000F0F#32]))
      ∧ ∀ (k : Fin 6) (code : ResultCode) (i : Nat), w.extractLsb' 6 26 = 0#26 → w.getLsbD k.val = true →
          s.commitFailure w k = some (code, i) →
          (∀ j : Fin 6, j < k → w.getLsbD j.val = true → s.commitFailure w j = none) →
          exec .commit s = .next (s.answered m rest code [BitVec.ofNat 32 (k.val + 256 * i)]))
  ∧ ∀ (s : State) (w : Word) (k : Fin 6),
    let c := s.chan k
    let x := c.staged
    let p := s.chan (partner k)
    let spans := x.mode = .span ∧ k.val % 2 = 0
    let partnerBusy := spans ∧ ¬(p.state = .off ∨ p.state = .lent ∧ c.active.mode = .span)
    let partnerNamed := spans ∧ w.getLsbD (k.val + 1) = true ∧ p.staged.mode ≠ .off
    let modeBroken := x.mode = .off ∧ x.marks ≠ [] ∨ x.mode = .span ∧ (k.val % 2 = 1 ∨ x.decode ≠ .step)
      ∨ x.mode = .loop ∧ x.final.toNat < 2
      ∨ x.mode = .pace ∧ (x.order ≠ .all ∨ x.reference ≠ .absolute ∨ x.stall ≠ 0#8)
      ∨ x.mode ≠ .loop ∧ x.resyncTerm.refs ≠ []
    let position := fun m : Mark => if x.reference = .absolute ∧ x.direction = .up then m.target.toInt
      else (x.final.toNat : Int) - m.target.toInt
    let emptyPulse := fun m : Mark => m.action = .pulse ∧ m.width = 0#16
    let badMark := fun (i : Nat) (m : Mark) => match x.mode with
      | .tally | .span | .loop => position m < 1 ∨ (x.final.toNat : Int) < position m ∨ m.crossing = .falling
          ∨ (x.order = .sequential ∧ ∃ q, 1 ≤ i ∧ x.marks[i - 1]? = some q ∧ position m < position q) ∨ emptyPulse m
      | .pace => m.target.toInt < 1 ∨ emptyPulse m
      | .off => False
    let taken := fun m : Mark => ∃ n, m.line = some n
      ∧ ((s.line n).owner ≠ .channel k ∨ n.val % 2 = 1 ∧ (s.pair (pairOfLine n)).paired = true)
    if c.state = .lent ∨ c.commitPending = true then s.commitFailure w k = some (.wrongState, 15)
    else if c.state = .faulted ∧ x.mode = .off ∧ c.active.mode ≠ .off then s.commitFailure w k = some (.wrongState, 15)
    else if partnerBusy then s.commitFailure w k = some (.wrongState, 15)
    else if partnerNamed then s.commitFailure w k = some (.badValue, 15)
    else if modeBroken then s.commitFailure w k = some (.badValue, 15)
    else ∀ (code : ResultCode) (i : Nat), s.commitFailure w k = some (code, i) ↔ ∃ m, x.marks[i]? = some m
      ∧ (∀ (j : Nat) (q : Mark), j < i → x.marks[j]? = some q → ¬badMark j q ∧ ¬taken q)
      ∧ (code = .badValue ∧ badMark i m ∨ code = .lineTaken ∧ ¬badMark i m ∧ taken m)

/-- R59, R67, R70 to R73, R53, R76, R39 and R142: an accepted COMMIT. The table of R70: what is done to a channel, by its
state and by the fields in which its two sets differ, of which mode, direction, decode, edge, reference and order are
structural and all others tunable. By it a named channel is untouched, copied,
halted and copied, or left commit-pending, and the reply says which; every other channel stays. An odd channel is
LENT exactly while its even partner is then in SPAN, and otherwise leaves LENT for OFF. The lines of a channel that is
halted, or enters OFF, are released, and no other line changes; of the inputs only filter candidates restart. -/
def Obligations.CommitAppliesCohort : Prop :=
  (∀ c : Channel,
    let x := c.staged
    let y := c.active
    let equalStructure := x.mode = y.mode ∧ x.direction = y.direction ∧ x.decode = y.decode ∧ x.edge = y.edge
      ∧ x.reference = y.reference ∧ x.order = y.order
    let tunably := x ≠ y ∧ equalStructure
    let structurally := ¬equalStructure
    (x = y → c.disposition = .untouched)
    ∧ (c.state ∈ [ChannelState.off, .idle, .complete, .faulted] → tunably ∨ structurally → c.disposition = .copied)
    ∧ (c.state = .armed → (tunably → c.disposition = .copied) ∧ (structurally → c.disposition = .halted))
    ∧ (c.state = .running ∨ c.state = .quenched →
        (tunably → c.disposition = .left) ∧ (structurally → c.disposition = .halted)))
  ∧ ∀ (s : State) (m : Message) (rest : List Message) (w : Word), s.takes m rest → m.isCommand 0x24#8 15#4 0#9 →
    m.body = [w] → w.extractLsb' 6 26 = 0#26 → w.extractLsb' 0 6 ≠ 0#6 → s.channelsWf →
    (∀ k : Fin 6, w.getLsbD k.val = true → s.commitFailure w k = none) →
    let halted := fun k : Fin 6 => w.getLsbD k.val && (s.chan k).disposition == .halted
    let copied := fun k : Fin 6 => w.getLsbD k.val && (s.chan k).disposition == .copied
    let left := fun k : Fin 6 => w.getLsbD k.val && (s.chan k).disposition == .left
    let mode := fun k : Fin 6 => if copied k || halted k then (s.chan k).staged.mode else (s.chan k).active.mode
    let copiedState : Fin 6 → ChannelState := fun k => match (s.chan k).state with
      | .off => if (s.chan k).staged.mode = .off then .off else .idle
      | .idle | .complete => if (s.chan k).staged.mode = .off then .off else (s.chan k).state
      | .armed | .running | .quenched | .faulted | .lent => (s.chan k).state
    let applied : Fin 6 → Channel := fun k =>
      let c := s.chan k
      let d := c.withStagedActive s.inputs
      if halted k then { d with
        state := if c.staged.mode = .off then .off else .idle, arming := Arming.disarmed c.staged.order
        stallLeft := none, resyncPending := false, windowLeft := none }
      else if copied k then { d with
        state := copiedState k
        value := if c.state = .armed then c.staged.loadValue else c.value
        arming := if c.state = .armed then c.staged.armAll else Arming.disarmed c.staged.order }
      else if left k then { c with commitPending := true }
      else c
    ∃ t r, exec .commit s = .next t
      ∧ t = { s.answered m rest .done [r] with
          channels := t.channels, matrix := t.matrix, inputs := { s.inputs with count := t.inputs.count, restarted := 0#12 } }
      ∧ (∀ k : Fin 6, r.getLsbD k.val = (copied k || halted k) ∧ r.getLsbD (8 + k.val) = halted k
          ∧ r.getLsbD (16 + k.val) = left k)
      ∧ r.extractLsb' 6 2 = 0#2 ∧ r.extractLsb' 14 2 = 0#2 ∧ r.extractLsb' 22 10 = 0#10
      ∧ (∀ k : Fin 6, t.chan k = { applied k with
          state := if isEven k then (applied k).state
            else if mode (partner k) = .span then .lent
            else if (s.chan k).state = .lent then .off
            else (applied k).state })
      ∧ s.onlyReleases t (fun k => halted k || (copied k && decide ((s.chan k).state ≠ .off ∧ copiedState k = .off)))
      ∧ s.onlyRestarts t

/-! ### Runs (Chapter 5) -/

/-- R24, R81 and R82: an accepted START loads every named channel, arms its marks, clears its records and takes it
to RUNNING or ARMED, and changes nothing else; START is refused as a whole when a named channel is in the wrong
state or has a ledger record, and for a mask that is not valid. -/
def Obligations.StartLoadsNamedChannels : Prop :=
  ∀ (s : State) (m : Message) (rest : List Message) (w : Word), s.takes m rest → m.isCommand 0x30#8 15#4 0#9 →
    m.body = [w] →
    (w.extractLsb' 6 26 ≠ 0#26 ∨ w.extractLsb' 0 6 = 0#6 → exec .start s = .next (s.answered m rest .badValue []))
    ∧ (w.extractLsb' 6 26 = 0#26 → w.extractLsb' 0 6 ≠ 0#6 →
    let fails := fun k : Fin 6 => decide ((s.chan k).state ≠ .idle ∧ (s.chan k).state ≠ .complete)
      || s.ledger.records.any (fun r => r.source == .channel k)
    ((∀ k : Fin 6, w.getLsbD k.val = true → fails k = false) → ∃ t, exec .start s = .next t
      ∧ t = { s.answered m rest .done [] with channels := t.channels }
      ∧ (∀ k : Fin 6, w.getLsbD k.val = false → t.chan k = s.chan k)
      ∧ ∀ k : Fin 6, w.getLsbD k.val = true →
        let c := s.chan k
        let runs := c.active.startTerm.refs.isEmpty
        t.chan k = { c with
          value := c.active.loadValue, cycleIndex := 0#16, arming := c.active.armAll, captures := []
          overcapture := 0#8, accumulator := 0#32, ring := [], windowCount := 0#16, lastWindowOrdinal := 0#16
          phaseErrors := 0#8, resyncPending := false
          state := if runs then .running else .armed
          stallLeft := if runs then c.stallTime else c.stallLeft
          windowLeft := if runs && c.active.mode == .pace then some ⟨windowTime c.active.window, c.active.window⟩
            else c.windowLeft })
    ∧ ((∃ k : Fin 6, w.getLsbD k.val = true ∧ fails k = true) → ∃ r, exec .start s = .next (s.answered m rest .wrongState [r])
      ∧ r.extractLsb' 6 2 = 0#2 ∧ r.extractLsb' 14 18 = 0#18
      ∧ ∀ k : Fin 6, r.getLsbD k.val = (w.getLsbD k.val && fails k)
        ∧ r.getLsbD (8 + k.val) = (w.getLsbD k.val && s.ledger.records.any (fun x => x.source == .channel k))))

/-- R24, R94, R111, R116 and R117: RESTART takes named QUENCHED channels back to RUNNING with the marks ahead of the
present progress armed, and is refused as a whole when a named channel is in another state, and for a mask that is not
valid. The position of a mark, and what all marks armed and the marks ahead armed are under either order. -/
def Obligations.RestartReturnsToRunning : Prop :=
  (∀ (s : State) (m : Message) (rest : List Message) (w : Word), s.takes m rest → m.isCommand 0x31#8 15#4 0#9 →
    m.body = [w] →
    (w.extractLsb' 6 26 ≠ 0#26 ∨ w.extractLsb' 0 6 = 0#6 → exec .restart s = .next (s.answered m rest .badValue []))
    ∧ (w.extractLsb' 6 26 = 0#26 → w.extractLsb' 0 6 ≠ 0#6 →
    ((∀ k : Fin 6, w.getLsbD k.val = true → (s.chan k).state = .quenched) → ∃ t, exec .restart s = .next t
      ∧ t = { s.answered m rest .done [] with channels := t.channels }
      ∧ (∀ k : Fin 6, w.getLsbD k.val = false → t.chan k = s.chan k)
      ∧ ∀ k : Fin 6, w.getLsbD k.val = true →
        let c := s.chan k
        t.chan k = { c with
          state := .running, stallLeft := c.stallTime
          arming := if c.active.mode.counting then c.active.armAhead (c.active.progress c.value) else c.active.armAll })
    ∧ ((∃ k : Fin 6, w.getLsbD k.val = true ∧ (s.chan k).state ≠ .quenched) →
      ∃ r, exec .restart s = .next (s.answered m rest .wrongState [r])
      ∧ r.extractLsb' 6 26 = 0#26
      ∧ ∀ k : Fin 6, r.getLsbD k.val = (w.getLsbD k.val && decide ((s.chan k).state ≠ .quenched)))))
  ∧ ∀ (c : ChannelConfig) (p : Int), c.marks.length ≤ 8 →
    (∀ m : Mark, c.position m = if c.reference = .absolute ∧ c.direction = .up then m.target.toInt
      else (c.final.toNat : Int) - m.target.toInt)
    ∧ (c.order = .all → ∃ all ahead, c.armAll = .flags all ∧ c.armAhead p = .flags ahead
      ∧ ∀ i : Fin 8, all.getLsbD i.val = decide (i.val < c.marks.length)
        ∧ ahead.getLsbD i.val = (c.marks.map fun m => decide (p < c.position m)).getD i.val false)
    ∧ (c.order = .sequential →
      c.armAll = .head (if c.marks = [] then none else some 0)
      ∧ ((∀ m ∈ c.marks, c.position m ≤ p) → c.armAhead p = .head none)
      ∧ ∀ (passed waiting : List Mark) (m : Mark), c.marks = passed ++ m :: waiting → (∀ x ∈ passed, c.position x ≤ p) →
          p < c.position m → c.armAhead p = .head (some passed.length))

/-- R24, R25, R93 and R142: QUENCH takes each named RUNNING channel to QUENCHED with its lines released, leaves every
other channel and line as it is, and reports the named channels that were not RUNNING. A mask that is not valid
is refused. -/
def Obligations.QuenchActsPerChannel : Prop :=
  ∀ (s : State) (m : Message) (rest : List Message) (w : Word), s.takes m rest → m.isCommand 0x32#8 15#4 0#9 →
    m.body = [w] →
    (w.extractLsb' 6 26 ≠ 0#26 ∨ w.extractLsb' 0 6 = 0#6 → exec .quench s = .next (s.answered m rest .badValue []))
    ∧ (w.extractLsb' 6 26 = 0#26 → w.extractLsb' 0 6 ≠ 0#6 →
    let acts := fun k : Fin 6 => w.getLsbD k.val && decide ((s.chan k).state = .running)
    ∃ t, exec .quench s = .next t
      ∧ (∃ code body, t = { s.answered m rest code body with channels := t.channels, matrix := t.matrix }
        ∧ ((∀ k : Fin 6, w.getLsbD k.val = acts k) → code = .done ∧ body = [])
        ∧ ((∃ k : Fin 6, w.getLsbD k.val ≠ acts k) → code = .partly ∧ ∃ r, body = [r]
          ∧ r.extractLsb' 6 26 = 0#26 ∧ ∀ k : Fin 6, r.getLsbD k.val = (w.getLsbD k.val && !acts k)))
      ∧ (∀ k : Fin 6, acts k = true → t.chan k =
          { s.chan k with state := .quenched, arming := Arming.disarmed (s.chan k).active.order, stallLeft := none })
      ∧ (∀ k : Fin 6, acts k = false → t.chan k = s.chan k)
      ∧ s.onlyReleases t acts)

/-- R24, R25, R39, R53, R74, R96, R142, R165 and R179: HALT takes each named channel in ARMED, RUNNING, QUENCHED,
COMPLETE or FAULTED to IDLE, with its run ended, its fault over and a pending commit applied, its lines released, its handed
flag cleared and its ledger record STANDING; every other channel, line and record stays, and so does the rest of the
Trip Unit. It reports the named channels in other states. A mask that is not valid is refused. -/
def Obligations.HaltActsPerChannel : Prop :=
  ∀ (s : State) (m : Message) (rest : List Message) (w : Word), s.takes m rest → m.isCommand 0x33#8 15#4 0#9 →
    m.body = [w] →
    (w.extractLsb' 6 26 ≠ 0#26 ∨ w.extractLsb' 0 6 = 0#6 → exec .halt s = .next (s.answered m rest .badValue []))
    ∧ (w.extractLsb' 6 26 = 0#26 → w.extractLsb' 0 6 ≠ 0#6 →
    let acts := fun k : Fin 6 => w.getLsbD k.val
      && decide ((s.chan k).state ≠ .off ∧ (s.chan k).state ≠ .idle ∧ (s.chan k).state ≠ .lent)
    let troubled := fun (k : Fin 6) (r : LedgerRecord) => acts k = true ∧ r.source = .channel k
      ∧ ((r.kind = .stall ∧ (s.chan k).faultedBy = some .stall) ∨ (r.kind = .overflow ∧ (s.chan k).faultedBy = some .overflow))
    ∃ t, exec .halt s = .next t
      ∧ (∃ code body, t = { s.answered m rest code body with
          channels := t.channels
          matrix := t.matrix
          inputs := { s.inputs with count := t.inputs.count, restarted := 0#12 }
          trip := { s.trip with handed := t.trip.handed }
          ledger := { s.ledger with records := t.ledger.records } }
        ∧ ((∀ k : Fin 6, w.getLsbD k.val = acts k) → code = .done ∧ body = [])
        ∧ ((∃ k : Fin 6, w.getLsbD k.val ≠ acts k) → code = .partly ∧ ∃ r, body = [r]
          ∧ r.extractLsb' 6 26 = 0#26 ∧ ∀ k : Fin 6, r.getLsbD k.val = (w.getLsbD k.val && !acts k)))
      ∧ (∀ k : Fin 6, acts k = true → t.chan k =
          let c := if (s.chan k).commitPending then (s.chan k).withStagedActive s.inputs else s.chan k
          { c with
            state := .idle, arming := Arming.disarmed c.active.order, stallLeft := none, resyncPending := false
            windowLeft := none, faultedBy := none })
      ∧ (∀ k : Fin 6, acts k = false → t.chan k = s.chan k)
      ∧ s.onlyReleases t acts ∧ s.onlyRestarts t
      ∧ (∀ k : Fin 6, t.trip.handed[k] = (s.trip.handed[k] && !(acts k && (s.chan k).faultedBy.isSome)))
      ∧ t.ledger.records = s.ledger.records.map fun r =>
          if ∃ k : Fin 6, troubled k r then { r with active := false } else r)

/-- R125 to R130 and R76: READ_CAPTURES removes and returns the oldest records, at most three, and clears the
overcapture count; it is refused for a LENT channel. A capture attempt takes the next ordinal and forms a record from the
channel's index, the value and the cause given; the record is appended when the FIFO holds fewer than 4, and otherwise
dropped and counted; a CAPTURE notice is offered either way. -/
def Obligations.ReadCapturesTakesOldest : Prop :=
  (∀ (s : State) (m : Message) (rest : List Message) (k : Fin 6), s.takes m rest → m.body = [] →
    m.isCommand 0x38#8 (channelField k) 0#9 →
    ((s.chan k).state = .lent → exec .readCaptures s = .next (s.answered m rest .wrongState []))
    ∧ ((s.chan k).state ≠ .lent → (s.chan k).captures.length ≤ 4 →
      let c : Channel := { s.chan k with captures := (s.chan k).captures.drop 3, overcapture := 0#8 }
      ∃ w, exec .readCaptures s = .next
        (({ s with channels := s.channels.set k c } : State).answered m rest .done
          (w :: (((s.chan k).captures.take 3).map CaptureRecord.words).flatten))
      ∧ (w.extractLsb' 0 2).toNat = min 3 (s.chan k).captures.length
      ∧ (w.extractLsb' 4 3).toNat = (s.chan k).captures.length - 3
      ∧ w.extractLsb' 8 8 = (s.chan k).overcapture))
  ∧ (∀ r : CaptureRecord, r.words = [r.value, r.index ++ r.cause ++ r.ordinal])
  ∧ ∀ (s : State) (k : Fin 6) (cause : BitVec 4) (value : Word), (s.chan k).captures.length ≤ 4 →
    let c := s.chan k
    let r : CaptureRecord :=
      { value := value
        index := match c.active.mode with
          | .loop => c.cycleIndex.setWidth 12
          | .pace => c.windowCount.setWidth 12
          | .off | .tally | .span => 0#12
        cause := cause
        ordinal := s.out.ordinal }
    let stored := c.captures.length < 4
    let d := if stored then { c with captures := c.captures ++ [r] }
      else { c with overcapture := saturatingAdd c.overcapture 1 }
    s.captureAttempt k cause value =
      ({ s with out := { s.out with ordinal := s.out.ordinal + 1#16 }, channels := s.channels.set k d } : State).offer
        ⟨.capture, channelField k,
          [0#8 ++ cause ++ BitVec.ofBool (!decide stored) ++ BitVec.ofNat 3 d.captures.length ++ s.out.ordinal, value]⟩

/-! ### Lines (Chapter 8) -/

/-- R152 and R153: BIND_LINE gives a line, and with a PAIR_EVEN line its odd line, an owner; UNBIND_LINE takes
the owner away, with the line INACTIVE and its pair SETTLED. Each check refuses in its order, the first of them a line
above 11, an owner code that names none, or another bit. Nothing else changes. -/
def Obligations.BindingGivesAndTakesOwner : Prop :=
  ∀ (s : State) (m : Message) (rest : List Message) (n : Fin 12), s.takes m rest → s.sealLevel.toNat < 3 →
    let odd := fun l : Fin 12 => s.pairing n = .pairEven ∧ l = oddLine (pairOfLine n)
    (∀ w : Word, m.body = [w] →
      let line := (w.extractLsb' 0 4).toNat
      let owner := (w.extractLsb' 8 4).toNat
      (m.isCommand 0x40#8 15#4 0#9 → 12 ≤ line ∨ (6 ≤ owner ∧ owner ≠ 8) ∨ w &&& 0xFFFFF0F0#32 ≠ 0#32 →
        exec .bindLine s = .next (s.answered m rest .badValue []))
      ∧ (m.isCommand 0x41#8 15#4 0#9 → 12 ≤ line ∨ w &&& 0xFFFFFFF0#32 ≠ 0#32 →
        exec .unbindLine s = .next (s.answered m rest .badValue [])))
    ∧ (∀ o : Owner, o ≠ .nobody → m.isCommand 0x40#8 15#4 0#9 →
      m.body = [BitVec.ofNat 32 n.val ||| o.code.setWidth 32 <<< 8] →
      let lent := ∃ k : Fin 6, o = .channel k ∧ (s.chan k).state = .lent
      (s.pairing n = .pairOdd → exec .bindLine s = .next (s.answered m rest .wrongState []))
      ∧ (s.pairing n ≠ .pairOdd → (s.line n).owner ≠ .nobody → (s.line n).owner ≠ o →
          exec .bindLine s = .next (s.answered m rest .lineTaken []))
      ∧ (s.pairing n ≠ .pairOdd → (s.line n).owner = .nobody ∨ (s.line n).owner = o → lent →
          exec .bindLine s = .next (s.answered m rest .wrongState []))
      ∧ (s.pairing n ≠ .pairOdd → (s.line n).owner = o → ¬lent → exec .bindLine s = .next (s.answered m rest .done []))
      ∧ (s.pairing n ≠ .pairOdd → (s.line n).owner = .nobody → ¬lent → ∃ t, exec .bindLine s = .next t
        ∧ t = { s.answered m rest .done [] with matrix := t.matrix }
        ∧ t.matrix.pairs = s.matrix.pairs ∧ t.matrix.shut = s.matrix.shut
        ∧ (∀ l : Fin 12, l = n ∨ odd l → t.line l = { s.line l with owner := o })
        ∧ ∀ l : Fin 12, ¬(l = n ∨ odd l) → t.line l = s.line l))
    ∧ (m.isCommand 0x41#8 15#4 0#9 → m.body = [BitVec.ofNat 32 n.val] →
      let held := ∃ k : Fin 6, (s.line n).owner = .channel k
        ∧ ((s.chan k).state.live = true ∨ ∃ x ∈ (s.chan k).active.marks, x.line = some n)
      (s.pairing n = .pairOdd ∨ held → exec .unbindLine s = .next (s.answered m rest .wrongState []))
      ∧ (s.pairing n ≠ .pairOdd → (s.line n).owner = .nobody → exec .unbindLine s = .next (s.answered m rest .done []))
      ∧ (s.pairing n ≠ .pairOdd → ¬held → (s.line n).owner ≠ .nobody → ∃ t, exec .unbindLine s = .next t
        ∧ t = { s.answered m rest .done [] with matrix := t.matrix } ∧ t.matrix.shut = s.matrix.shut
        ∧ t.line n = { s.line n with owner := .nobody, active := false, pulseLeft := none }
        ∧ (∀ l : Fin 12, odd l → t.line l = { s.line l with owner := .nobody })
        ∧ (∀ l : Fin 12, ¬(l = n ∨ odd l) → t.line l = s.line l)
        ∧ ∀ j : Fin 6, t.pair j =
            if s.pairing n = .pairEven ∧ j = pairOfLine n then { s.pair j with gapLeft := none } else s.pair j))

/-- R154 and R145: SHAPE_LINE gives a line its polarity and safe level, unless its word is out of range, a paired line
and its partner would then both have their active level as safe level, or the owner is at work. Nothing else changes. -/
def Obligations.ShapeLineSetsPolarityAndSafe : Prop :=
  (∀ (s : State) (m : Message) (rest : List Message) (w : Word), s.takes m rest → m.isCommand 0x42#8 15#4 0#9 →
    s.sealLevel.toNat < 2 → m.body = [w] →
    12 ≤ (w.extractLsb' 0 4).toNat ∨ w.extractLsb' 8 2 = 3#2 ∨ w &&& 0xFFFFFCE0#32 ≠ 0#32 →
      exec .shapeLine s = .next (s.answered m rest .badValue []))
  ∧ ∀ (s : State) (m : Message) (rest : List Message) (n p : Fin 12) (inverted : Bool) (safe : PinLevel), s.takes m rest →
    m.isCommand 0x42#8 15#4 0#9 → s.sealLevel.toNat < 2 → pairOfLine p = pairOfLine n → p ≠ n →
    m.body = [BitVec.ofNat 32 n.val ||| (BitVec.ofBool inverted).setWidth 32 <<< 4 ||| (safeCode safe).setWidth 32 <<< 8] →
    let shaped : Line := { s.line n with inverted := inverted, safe := safe }
    let clash := (s.pair (pairOfLine n)).paired = true ∧ safe = shaped.activeLevel ∧ (s.line p).safe = (s.line p).activeLevel
    let live := ∃ k : Fin 6, (s.line n).owner = .channel k ∧ (s.chan k).state.live = true
    (clash → exec .shapeLine s = .next (s.answered m rest .badValue []))
    ∧ (¬clash → live → exec .shapeLine s = .next (s.answered m rest .wrongState []))
    ∧ (¬clash → ¬live → exec .shapeLine s = .next
        ({ s with matrix := { s.matrix with lines := s.matrix.lines.set n shaped } }.answered m rest .done []))

/-- R155 and R144: SHAPE_PAIR pairs, changes a gap or separates, after its checks in their order, the first of them an
odd line or one above 10, another bit, pairing with a gap of 0 and separating with another. Pairing makes the odd line
INACTIVE and an owned pair enters its gap. -/
def Obligations.ShapePairPairsAndSeparates : Prop :=
  (∀ (s : State) (m : Message) (rest : List Message) (w : Word), s.takes m rest → m.isCommand 0x43#8 15#4 0#9 →
    s.sealLevel.toNat < 2 → m.body = [w] →
    w.getLsbD 0 = true ∨ 11 ≤ (w.extractLsb' 0 4).toNat ∨ w &&& 0xFFFF00E0#32 ≠ 0#32
        ∨ (w.getLsbD 4 = true ∧ w.extractLsb' 8 8 = 0#8) ∨ (w.getLsbD 4 = false ∧ w.extractLsb' 8 8 ≠ 0#8) →
      exec .shapePair s = .next (s.answered m rest .badValue []))
  ∧ ∀ (s : State) (m : Message) (rest : List Message) (j : Fin 6) (pairing : Bool) (gap : Byte), s.takes m rest →
    m.isCommand 0x43#8 15#4 0#9 → s.sealLevel.toNat < 2 → (pairing = true ↔ gap ≠ 0#8) →
    m.body = [BitVec.ofNat 32 (2 * j.val) ||| (BitVec.ofBool pairing).setWidth 32 <<< 4 ||| gap.setWidth 32 <<< 8] →
    let even := s.line (evenLine j)
    let odd := s.line (oddLine j)
    let clash := pairing = true ∧ even.safe = even.activeLevel ∧ odd.safe = odd.activeLevel
    let strange := pairing = true ∧ even.owner ≠ odd.owner
    let held := ∃ k : Fin 6, even.owner = .channel k ∧ ((s.chan k).state.live = true
      ∨ pairing = true ∧ ∃ x ∈ (s.chan k).active.marks, x.line = some (oddLine j))
    (clash → exec .shapePair s = .next (s.answered m rest .badValue []))
    ∧ (¬clash → strange → exec .shapePair s = .next (s.answered m rest .lineTaken []))
    ∧ (¬clash → ¬strange → held → exec .shapePair s = .next (s.answered m rest .wrongState []))
    ∧ (¬clash → ¬strange → ¬held → ∃ t, exec .shapePair s = .next t
      ∧ t = { s.answered m rest .done [] with matrix := t.matrix } ∧ t.matrix.shut = s.matrix.shut
      ∧ (∀ l : Fin 12, l ≠ oddLine j → t.line l = s.line l)
      ∧ t.line (oddLine j) = (if pairing = true ∧ (s.pair j).paired = false then odd.cleared else odd)
      ∧ (∀ i : Fin 6, i ≠ j → t.pair i = s.pair i)
      ∧ t.pair j = match pairing, (s.pair j).paired with
        | true, false => ⟨true, gap, if even.owner = .nobody then none else some (gap.toNat * microsecond)⟩
        | true, true => { s.pair j with gap := gap }
        | false, true => { s.pair j with paired := false, gapLeft := none }
        | false, false => s.pair j)

/-- R156 and R144: DRIVE_LINES gives every named line its value, with an owned pair whose target changes in its
gap; it is refused, and changes nothing, when a bit is out of place or a named line is not the host's. -/
def Obligations.DriveLinesSetsNamedLines : Prop :=
  ∀ (s : State) (m : Message) (rest : List Message) (w : Word), s.takes m rest → m.isCommand 0x44#8 15#4 0#9 →
    m.body = [w] →
    let refused := w &&& 0xF000F000#32 ≠ 0#32
      ∨ ∃ n : Fin 12, w.getLsbD n.val = true ∧ ((s.line n).owner ≠ .host ∨ s.pairing n = .pairOdd)
    (refused → exec .driveLines s = .next (s.answered m rest .badValue []))
    ∧ (¬refused → ∃ t, exec .driveLines s = .next t
      ∧ t = { s.answered m rest .done [] with matrix := t.matrix } ∧ t.matrix.shut = s.matrix.shut
      ∧ (∀ n : Fin 12, t.line n =
          if w.getLsbD n.val then { s.line n with active := w.getLsbD (16 + n.val), pulseLeft := none } else s.line n)
      ∧ ∀ j : Fin 6, t.pair j =
          if s.trip.permit = .permitted ∧ (s.pair j).paired = true ∧ (t.line (evenLine j)).active ≠ (s.line (evenLine j)).active
          then (s.pair j).inGap else s.pair j)

/-- R145: the two pins of a pair are never both at their active pin levels. -/
def Obligations.PairPinsNeverBothActive : Prop :=
  ∀ (s : State) (j : Fin 6), s.linesWf → (s.pair j).paired = true →
    ¬(s.pinLevel (evenLine j) = (s.line (evenLine j)).activeLevel ∧ s.pinLevel (oddLine j) = (s.line (oddLine j)).activeLevel)

/-- R140, R141 and R144: the four line actions; a pulse timer at zero makes its line INACTIVE. A change of the
reference of a PERMITTED owned pair puts the pair in its gap; a gap at zero settles its pair. Nothing else changes. -/
def Obligations.PulsesAndGapsEnd : Prop :=
  (∀ (s : State),
    (∀ n : Fin 12, (s.line n).pulseLeft = some 0 → ∃ t, exec (.pulseEnd n) s = .next t
      ∧ t = { s with matrix := t.matrix } ∧ t.matrix.shut = s.matrix.shut
      ∧ t.line n = (s.line n).cleared ∧ (∀ l : Fin 12, l ≠ n → t.line l = s.line l)
      ∧ ∀ j : Fin 6, t.pair j =
          if n = evenLine j ∧ s.ownedPair j = true ∧ s.trip.permit = .permitted ∧ (s.line n).active = true
          then (s.pair j).inGap else s.pair j)
    ∧ ∀ j : Fin 6, (s.pair j).gapLeft = some 0 → exec (.gapEnd j) s = .next
        { s with matrix := { s.matrix with pairs := s.matrix.pairs.set j { s.pair j with gapLeft := none } } })
  ∧ ∀ (s : State) (n : Fin 12) (a : LineAction),
    let t := s.lineAction n a
    t = { s with matrix := t.matrix } ∧ t.matrix.shut = s.matrix.shut
      ∧ t.line n = { s.line n with
          active := match a with
            | .set => true
            | .clear => false
            | .toggle => !(s.line n).active
            | .pulse _ => true
          pulseLeft := match a with
            | .pulse width => some (width.toNat * millisecond)
            | .set | .clear | .toggle => none }
      ∧ (∀ l : Fin 12, l ≠ n → t.line l = s.line l)
      ∧ ∀ j : Fin 6, t.pair j =
          if n = evenLine j ∧ (s.pair j).paired = true ∧ (s.line n).owner ≠ .nobody ∧ s.trip.permit = .permitted
            ∧ (t.line n).active ≠ (s.line n).active
          then (s.pair j).inGap else s.pair j

/-! ### Trip and permit (Chapter 9) -/

/-- R172: SET_TRIP sets the whole configuration when the complement agrees and no reserved bit is set; while the permit is
PERMITTED it is refused if a cause it enables is present. The TRIP_INPUT record follows the new polarity. That it
turns ACTIVE too, and that an assertion still owed after initialisation is not yet present, is the model's
(log entries 22 and 12). -/
def Obligations.SetTripConfiguresOrRefuses : Prop :=
  ∀ (s : State) (m : Message) (rest : List Message) (c : TripConfig), s.takes m rest → m.isCommand 0x48#8 15#4 0#9 →
    s.sealLevel = 0#2 →
    (∀ w : Word, w ≠ ~~~tripWord c → m.body = [tripWord c, w] → exec .setTrip s = .next (s.answered m rest .badValue []))
    ∧ (∀ w0 w1 : Word, m.body = [w0, w1] → w0.extractLsb' 6 2 ≠ 0#2 ∨ w0.extractLsb' 8 3 = 6#3 ∨ w0.extractLsb' 11 5 ≠ 0#5
        ∨ w0.extractLsb' 24 8 ≠ 0#8 ∨ w1 ≠ ~~~w0 → exec .setTrip s = .next (s.answered m rest .badValue []))
    ∧ (m.body = [tripWord c, ~~~tripWord c] →
      let present := (s.safety.tripIn.input.filtered == c.tripInActiveHigh) && !s.safety.tripIn.owed
      (s.trip.permit = .permitted → s.enabledCausesUnder c ≠ 0#32 →
        exec .setTrip s = .next (s.answered m rest .causePresent [s.enabledCausesUnder c]))
      ∧ (s.trip.permit ≠ .permitted ∨ s.enabledCausesUnder c = 0#32 →
        let watch := if c.watch = 0#8 then none
          else if s.trip.hostLost then s.trip.watchLeft else some (c.watch.toNat * tenMilliseconds)
        let records := s.ledger.records.map fun r =>
          if r.source = .tripIn ∧ r.kind = .tripInput then { r with active := present } else r
        exec .setTrip s = .next ({ s with
          trip := { s.trip with config := c, watchLeft := watch }
          ledger := { s.ledger with records := records } }.answered m rest .done [])))

/-- R173, R164 and R168: TRIP takes a SOFT occurrence, which withdraws a PERMITTED permit. RESUME grants the
permit, with an ordinal and gaps, unless it is PERMITTED or an enabled cause is present. -/
def Obligations.TripWithdrawsResumeGrants : Prop :=
  ∀ (s : State) (m : Message) (rest : List Message), s.takes m rest → m.body = [] →
    (m.isCommand 0x49#8 15#4 0#9 →
      let trips := s.trip.permit == .permitted
      ∃ u, (s.takeMessage rest).occurrenceTaken u .soft .softTrip false trips .soft
        ∧ exec .trip s = .next (u.admitReply m
            ⟨.done, [(BitVec.ofBool trips).setWidth 32 ||| u.trip.permit.code.setWidth 32 <<< 4]⟩))
    ∧ (m.isCommand 0x4A#8 15#4 0#9 →
      (s.trip.permit = .permitted → exec .resume s = .next (s.answered m rest .nothingPending []))
      ∧ (s.trip.permit ≠ .permitted → s.enabledCauses ≠ 0#32 →
          exec .resume s = .next (s.answered m rest .causePresent [s.enabledCauses]))
      ∧ (s.trip.permit ≠ .permitted → s.enabledCauses = 0#32 →
        let v := s.takeMessage rest
        ∃ u, exec .resume s = .next (u.admitReply m ⟨.done, []⟩)
          ∧ u = { v with port := u.port, out := u.out, matrix := u.matrix, trip := { s.trip with permit := .permitted } }
          ∧ v.onlyNotifies u ∧ v.onlyGaps u true ∧ u.out.ordinal = s.out.ordinal + 1#16))

/-- R161, R149, R164, R170, R171 and R187: TRIP_IN, OVLb or SUPPLY_OK asserting, and the watch expiring, take one
occurrence each, which withdraws a PERMITTED permit when the source is enabled; OVLb shuts its bank as well. An input
found at its active level when initialisation ended asserts at the first instant, which comes before any command; that it
owes its assertion until then, and that TRIP_IN is judged under the polarity of that moment, is the model's (log entries
12 and 22). -/
def Obligations.CausesAssertAndTrip : Prop :=
  ∀ (s : State),
    let p := s.trip.permit == .permitted
    (s.safety.tripIn.owed = false → s.safety.tripIn.input.heldFor 4 →
      s.safety.tripIn.input.filtered ≠ s.trip.config.tripInActiveHigh →
      ∃ t, exec .tripInAssert s = .next t
        ∧ { s with safety := { s.safety with tripIn := ⟨s.safety.tripIn.input.flipped, false⟩ } }.occurrenceTaken t
            .tripIn .tripInput true (s.trip.config.tripInEnable && p) .tripIn)
    ∧ (∀ b : Fin 3, s.safety.ovl[b].owed = false → s.safety.ovl[b].input.heldFor 4 →
      s.safety.ovl[b].input.filtered = false → ∃ t, exec (.overloadAssert b) s = .next t
        ∧ { s with
            safety := { s.safety with ovl := s.safety.ovl.set b ⟨s.safety.ovl[b].input.flipped, false⟩ }
            matrix := { s.matrix with shut := s.matrix.shut.set b true } }.occurrenceTaken t
            (.bank b) .overload true (s.trip.config.overloadEnable && p) (.overload b))
    ∧ (s.safety.supplyOk.owed = false → s.safety.supplyOk.input.heldFor 4 → s.safety.supplyOk.input.filtered = true →
      ∃ t, exec .supplyLoss s = .next t
        ∧ { s with safety := { s.safety with supplyOk := ⟨s.safety.supplyOk.input.flipped, false⟩ } }.occurrenceTaken t
            .supply .supplyLoss true (s.trip.config.supplyEnable && p) .supply)
    ∧ (s.trip.watchLeft = some 0 → ∃ t, exec .watchExpiry s = .next t
        ∧ { s with trip := { s.trip with watchLeft := none, hostLost := true } }.occurrenceTaken t
            .host .hostLost true ((s.trip.config.hostLoss == HostLossPolicy.trip) && p) .hostLost)
    ∧ (s.safety.tripIn.owed = true → ∃ t, exec .tripInAssert s = .next t
        ∧ { s with safety := { s.safety with tripIn := ⟨s.safety.tripIn.input, false⟩ } }.occurrenceTaken t
            .tripIn .tripInput (s.safety.tripIn.input.filtered == s.trip.config.tripInActiveHigh)
            (s.trip.config.tripInEnable && p) .tripIn)
    ∧ (∀ b : Fin 3, s.safety.ovl[b].owed = true → ∃ t, exec (.overloadAssert b) s = .next t
        ∧ { s with
            safety := { s.safety with ovl := s.safety.ovl.set b ⟨s.safety.ovl[b].input, false⟩ }
            matrix := { s.matrix with shut := s.matrix.shut.set b true } }.occurrenceTaken t
            (.bank b) .overload true (s.trip.config.overloadEnable && p) (.overload b))
    ∧ (s.safety.supplyOk.owed = true → ∃ t, exec .supplyLoss s = .next t
        ∧ { s with safety := { s.safety with supplyOk := ⟨s.safety.supplyOk.input, false⟩ } }.occurrenceTaken t
            .supply .supplyLoss true (s.trip.config.supplyEnable && p) .supply)
    ∧ (s.pending = [] → s.initialising = false →
        s.safety.tripIn.owed = true ∨ (∃ b : Fin 3, s.safety.ovl[b].owed = true) ∨ s.safety.supplyOk.owed = true →
        ∃ t, step s = .next t ∧ t = { s with
            pending := t.pending, inputs := { s.inputs with restarted := 0#12 }, instant := t.instant }
          ∧ (s.safety.tripIn.owed = true → .tripInAssert ∈ t.pending)
          ∧ (∀ b : Fin 3, s.safety.ovl[b].owed = true → .overloadAssert b ∈ t.pending)
          ∧ (s.safety.supplyOk.owed = true → .supplyLoss ∈ t.pending))

/-- R165: a cause releasing turns its ledger record STANDING, and changes nothing else: no permit, no ordinal,
no notice, no shut flag. -/
def Obligations.CausesReleaseQuietly : Prop :=
  ∀ (s : State),
    (s.safety.tripIn.owed = false → s.safety.tripIn.input.heldFor 4 →
      s.safety.tripIn.input.filtered = s.trip.config.tripInActiveHigh → exec .tripInRelease s = .next
        { s with
          safety := { s.safety with tripIn := ⟨s.safety.tripIn.input.flipped, false⟩ }
          ledger := s.ledger.standingAt .tripIn .tripInput })
    ∧ (∀ b : Fin 3, s.safety.ovl[b].owed = false → s.safety.ovl[b].input.heldFor 4 →
      s.safety.ovl[b].input.filtered = true → exec (.overloadRelease b) s = .next
        { s with
          safety := { s.safety with ovl := s.safety.ovl.set b ⟨s.safety.ovl[b].input.flipped, false⟩ }
          ledger := s.ledger.standingAt (.bank b) .overload })
    ∧ (s.safety.supplyOk.owed = false → s.safety.supplyOk.input.heldFor 4 → s.safety.supplyOk.input.filtered = false →
      exec .supplyReturn s = .next
        { s with
          safety := { s.safety with supplyOk := ⟨s.safety.supplyOk.input.flipped, false⟩ }
          ledger := s.ledger.standingAt .supply .supplyLoss })

/-! ### Ledger, seals and ENGINE_RESET (Chapter 10) -/

/-- R184 and R178: READ_FAULTS returns the records f, f+1 and f+2 that exist and clears the ledger-lost flag only. The
record word, in which every reply and notice carries a record, field by field. -/
def Obligations.ReadFaultsReturnsRecords : Prop :=
  (∀ (s : State) (m : Message) (rest : List Message) (f : BitVec 9), s.takes m rest → f.toNat < 16 →
    m.isCommand 0x50#8 15#4 f → m.body = [] → s.ledger.records.length ≤ 16 →
    let found := (s.ledger.records.drop f.toNat).take 3
    ∃ w, exec .readFaults s = .next ({ s with ledger := { s.ledger with lost := false } }.answered m rest .done
        (w :: found.map LedgerRecord.word))
      ∧ (w.extractLsb' 0 8).toNat = s.ledger.records.length ∧ w.getLsbD 8 = s.ledger.lost ∧ w.extractLsb' 9 7 = 0#7
      ∧ (w.extractLsb' 16 8).toNat = found.length ∧ (w.extractLsb' 24 8).toNat = f.toNat)
  ∧ ∀ r : LedgerRecord, r.word.extractLsb' 0 16 = r.ordinal
      ∧ r.word.extractLsb' 16 4 = (match r.source with
        | .channel k => BitVec.ofNat 4 k.val
        | .bank b => BitVec.ofNat 4 (8 + b.val)
        | .tripIn => 12#4
        | .host => 13#4
        | .supply => 14#4
        | .soft => 15#4)
      ∧ r.word.extractLsb' 20 3 = (match r.kind with
        | .stall => 1#3
        | .overflow => 2#3
        | .overload => 3#3
        | .supplyLoss => 4#3
        | .tripInput => 5#3
        | .softTrip => 6#3
        | .hostLost => 7#3)
      ∧ r.word.getLsbD 23 = r.active ∧ r.word.extractLsb' 24 4 = r.repeats ∧ r.word.extractLsb' 28 4 = 0#4

/-- R183 and R150: ACK_FAULT removes the oldest STANDING record and releases the shut banks that this frees, and its reply
holds the removed record, the number of records left and the banks released; it is refused when there is nothing to
do. Nothing else changes. The ledger holds at most 16 records. -/
def Obligations.AckFaultRemovesOldestStanding : Prop :=
  ∀ (s : State) (m : Message) (rest : List Message), s.takes m rest → m.isCommand 0x51#8 15#4 0#9 → m.body = [] →
    s.ledger.records.length ≤ 16 →
    let counts := fun (w : Word) (n : Nat) => (w.extractLsb' 0 5).toNat = n ∧ w.extractLsb' 5 3 = 0#3 ∧ w.extractLsb' 11 21 = 0#21
    (∀ (before after : List LedgerRecord) (r : LedgerRecord), s.ledger.records = before ++ r :: after →
      (∀ x ∈ before, x.active = true) → r.active = false → ∃ t w, exec .ackFault s = .next t
        ∧ t = { s.answered m rest .done [r.word, w] with
            ledger := { s.ledger with records := before ++ after }, matrix := { s.matrix with shut := t.matrix.shut } }
        ∧ (∀ b : Fin 3, t.matrix.shut[b] = (s.matrix.shut[b]
            && !decide (r.source = .bank b ∧ r.kind = .overload)
            && (s.safety.ovl[b].input.filtered
              || (before ++ after).any fun x => decide (x.source = .bank b ∧ x.kind = .overload))))
        ∧ counts w (before.length + after.length)
        ∧ ∀ b : Fin 3, w.getLsbD (8 + b.val) = (s.matrix.shut[b] && !t.matrix.shut[b]))
    ∧ ((∀ x ∈ s.ledger.records, x.active = true) →
      let frees := fun b : Fin 3 => s.matrix.shut[b] && !s.safety.ovl[b].input.filtered
        && !s.ledger.records.any fun x => decide (x.source = .bank b ∧ x.kind = .overload)
      ((∀ b : Fin 3, frees b = false) → exec .ackFault s = .next (s.answered m rest .nothingPending []))
      ∧ ((∃ b : Fin 3, frees b = true) → ∃ t w, exec .ackFault s = .next t
        ∧ t = { s.answered m rest .done [0#32, w] with matrix := { s.matrix with shut := t.matrix.shut } }
        ∧ (∀ b : Fin 3, t.matrix.shut[b] = (s.matrix.shut[b] && !frees b))
        ∧ counts w s.ledger.records.length
        ∧ ∀ b : Fin 3, w.getLsbD (8 + b.val) = frees b))

/-- R186: SEAL raises the seal level or leaves it equal, refuses a lower level and a modifier with other bits,
and changes nothing else. -/
def Obligations.SealOnlyRises : Prop :=
  ∀ (s : State) (m : Message) (rest : List Message) (f : BitVec 9), s.takes m rest → m.body = [] →
    m.isCommand 0x52#8 15#4 f →
    let level := f.extractLsb' 0 2
    (f.extractLsb' 2 7 ≠ 0#7 → exec .sealRaise s = .next (s.answered m rest .badValue []))
    ∧ (f.extractLsb' 2 7 = 0#7 → s.sealLevel.toNat ≤ level.toNat → exec .sealRaise s = .next
        ({ s with sealLevel := level }.answered m rest .done [level.setWidth 32]))
    ∧ (f.extractLsb' 2 7 = 0#7 → level.toNat < s.sealLevel.toNat →
        exec .sealRaise s = .next (s.answered m rest .sealed []))

/-- R185, R188, R189, R5, R57, R39, R47, R158, R172 and R177: ENGINE_RESET gives every channel its power-on state, the
lines, inputs and trip configuration theirs unless the seal keeps them, withholds a PERMITTED permit, keeps the ledger's
records, and leaves its reply alone in the RNQ. A pair still owned whose target changes enters its gap, every other
pair is SETTLED; the watch stops when watch is 0; candidates restart where the filter setting changes; a pop slot that
has presented a message or word ends without effect. The model's: an assertion still owed is not yet present (log
entries 12 and 22), a refused slot in progress stays refused (log entry 9), and a candidate whose routing changes
restarts (log entry 24). -/
def Obligations.EngineResetResetsUnsealed : Prop :=
  ∀ (s : State) (m : Message) (rest : List Message), s.takes m rest → m.isCommand 0x53#8 15#4 0#9 → m.body = [] →
    let level := s.sealLevel.toNat
    ∃ t, exec .engineReset s = .next t
      ∧ t = { s with
          port := t.port, out := t.out, inputs := t.inputs, channels := Vector.replicate 6 Channel.reset
          matrix := t.matrix, trip := t.trip, ledger := t.ledger, instant := none }
      ∧ t.port = { s.port with ciq := [], popBuffer := [], transaction := t.port.transaction }
      ∧ t.port.transaction = (s.port.transaction.map fun u =>
          if u.command = some 0x8A#8 ∨ u.command = some 0x8B#8 then
            { u with slot := u.slot.map fun x => match x.outcome with
                | .hands => { x with outcome := .void }
                | .refuses | .void => x }
          else u)
      ∧ t.out = { s.out with
          rnq := [replyMessage m ⟨.done, [BitVec.ofNat 32 rest.length, BitVec.ofNat 32 s.out.rnq.length]⟩], reserved := false }
      ∧ t.inputs.restarted = 0#12
      ∧ (∀ n : Fin 8, t.dinPin n = if 3 ≤ level then s.dinPin n else
          ⟨{ (s.dinPin n).input with
              held := if (s.dinPin n).code = 2#2 then (s.dinPin n).input.held else (s.dinPin n).input.held.map fun _ => 0 },
            2#2, false⟩)
      ∧ (∀ p : Fin 12, t.countPin p =
          if s.filterChannel p = channelOfPin p ∧ s.countFilterOf p = 1#2 then s.countPin p
          else { s.countPin p with held := (s.countPin p).held.map fun _ => 0 })
      ∧ (∀ n : Fin 12, t.line n = {
          owner := if 3 ≤ level then (s.line n).owner else .nobody
          inverted := if 2 ≤ level then (s.line n).inverted else false
          safe := if 2 ≤ level then (s.line n).safe else .opened
          active := false
          pulseLeft := none })
      ∧ (∀ j : Fin 6, (t.pair j).paired = (if 2 ≤ level then (s.pair j).paired else false)
          ∧ (t.pair j).gap = (if 2 ≤ level then (s.pair j).gap else 10#8)
          ∧ (t.pair j).gapLeft =
            (if (t.pair j).paired = true ∧ (t.line (evenLine j)).owner ≠ .nobody ∧ s.trip.permit = .permitted then
              some ((t.pair j).gap.toNat * microsecond)
            else none))
      ∧ t.matrix.shut = s.matrix.shut
      ∧ t.trip = { s.trip with
          permit := if s.trip.permit = .permitted then .withheld else s.trip.permit
          config := if 1 ≤ level then s.trip.config else ⟨false, false, false, false, .freeze, .hold, none, 0#8⟩
          watchLeft := if t.trip.config.watch = 0#8 then none else s.trip.watchLeft
          handed := Vector.replicate 6 false }
      ∧ t.ledger.lost = s.ledger.lost
      ∧ t.ledger.records = s.ledger.records.map fun r => match r.source, r.kind with
        | .channel _, .stall | .channel _, .overflow => { r with active := false }
        | .tripIn, .tripInput =>
          { r with active := (s.safety.tripIn.input.filtered == t.trip.config.tripInActiveHigh) && !s.safety.tripIn.owed }
        | _, _ => r

/-! ### Inputs, counting, marks and windows (Chapters 3, 5, 6 and 7) -/

/-- R38, R48 and R161: while ready is 1, a pin change away from the filtered level starts a candidate, or lets one
in progress go on; a return to the filtered level drops it. No filtered level changes. -/
def Obligations.PinChangesStartAndDropCandidates : Prop :=
  ∀ (s : State) (level : Bool), s.power.ready = true →
    let changed := fun i : FilteredInput =>
      (⟨level, i.filtered, if level = i.filtered then none else some (i.held.getD 0)⟩ : FilteredInput)
    (∀ p : Fin 12, exec (.countInputChange p level) s = .next
      { s with inputs := { s.inputs with count := s.inputs.count.set p (changed (s.countPin p)) } })
    ∧ (∀ n : Fin 8, exec (.dinChange n level) s = .next
      { s with inputs := { s.inputs with
        din := s.inputs.din.set n ⟨changed (s.dinPin n).input, (s.dinPin n).code, (s.dinPin n).invert⟩ } })
    ∧ exec (.safetyInputChange .tripIn level) s = .next
      { s with safety := { s.safety with tripIn := ⟨changed s.safety.tripIn.input, s.safety.tripIn.owed⟩ } }
    ∧ (∀ b : Fin 3, exec (.safetyInputChange (.ovl b) level) s = .next
      { s with safety := { s.safety with
        ovl := s.safety.ovl.set b ⟨changed s.safety.ovl[b].input, s.safety.ovl[b].owed⟩ } })
    ∧ exec (.safetyInputChange .supplyOk level) s = .next
      { s with safety := { s.safety with supplyOk := ⟨changed s.safety.supplyOk.input, s.safety.supplyOk.owed⟩ } }

/-- R53, R55, R86 and R97: SET_INPUTS sets the filter code and invert flag of every DIN, restarts the candidates whose code
changes, and recomputes the held values of every channel without an edge: no channel changes state. A gate that this closes
stops the stall timer of a RUNNING channel, and one that it opens starts that timer in full. -/
def Obligations.SetInputsRecomputesWithoutEdges : Prop :=
  ∀ (s : State) (m : Message) (rest : List Message) (w : Word), s.takes m rest → m.isCommand 0x18#8 15#4 0#9 →
    m.body = [w] → s.sealLevel.toNat < 3 →
    (w.extractLsb' 24 8 ≠ 0#8 → exec .setInputs s = .next (s.answered m rest .badValue []))
    ∧ (w.extractLsb' 24 8 = 0#8 → ∃ t, exec .setInputs s = .next t
      ∧ t = { s.answered m rest .done [] with inputs := t.inputs, channels := t.channels }
      ∧ t.inputs.count = s.inputs.count
      ∧ (∀ n : Fin 8, (t.dinPin n).code = w.extractLsb' (2 * n.val) 2 ∧ (t.dinPin n).invert = w.getLsbD (16 + n.val)
          ∧ (t.dinPin n).input = { (s.dinPin n).input with
              held := if (t.dinPin n).code = (s.dinPin n).code then (s.dinPin n).input.held
                else (s.dinPin n).input.held.map fun _ => 0 })
      ∧ ∀ k : Fin 6, t.heldWf k ∧ t.chan k = { s.chan k with
          heldStart := (t.chan k).heldStart, heldRestart := (t.chan k).heldRestart, heldQuench := (t.chan k).heldQuench
          heldResync := (t.chan k).heldResync, gateOpen := (t.chan k).gateOpen
          stallLeft :=
            if (s.chan k).state ≠ .running then (s.chan k).stallLeft
            else if (t.chan k).gateOpen = false ∨ (s.chan k).active.stall = 0#8 then none
            else if (s.chan k).gateOpen = false then some ((s.chan k).active.stall.toNat * tenMilliseconds)
            else (s.chan k).stallLeft })

/-- R38 to R47, R75, R78, R80, R84, R85, R87 to R92, R97, R98, R111, R118 to R120, R131, R144 and R169. An accepted rise of CAk is one
forward step of a TALLY channel that decodes STEP on rising edges: ignored unless the channel counts with its gate open
and is not frozen; applied, it moves V by one, and at the final value the run completes. Then, in general: which
candidates of an instant are accepted and that the channels take their steps in order; the steps and phase errors of
every decode; what a step does in every mode; which marks it fires; and what a cycle end does. That at a cycle index
of 65535 the increased index is tested before it wraps, as R75 asks, and how a copy settles the stall timer when gate and
stall change together, are the model's readings (log entries 27 and 16). -/
def Obligations.CountedEdgeMovesTally : Prop :=
  (∀ (s : State) (k : Fin 6), (s.chan k).active.mode = .tally → (s.chan k).active.decode = .step →
    (s.chan k).active.edge = .rise → (s.chan (partner k)).active.mode ≠ .span → (s.chan k).state ≠ .lent →
    (s.countPin (pinCA k)).filtered = false → s.inputs.restarted.getLsbD (2 * k.val) = false →
    (s.countPin (pinCA k)).heldFor (countFilterTime (s.chan k).active.countFilter) →
    let c := s.chan k
    let inputs := { s.inputs with count := s.inputs.count.set (pinCA k) (s.countPin (pinCA k)).flipped }
    let applies := c.state.counts = true ∧ c.gateOpen = true ∧ s.frozen k = false
    let next := if c.active.direction = .up then c.value.toInt + 1 else c.value.toInt - 1
    let distance := if c.active.direction = .up then next else (c.active.final.toNat : Int) - next
    ∃ t, exec (.countFilterAccept (1#12 <<< (2 * k.val))) s = .next t ∧ t.inputs.din = s.inputs.din
      ∧ (∀ p : Fin 12, (t.countPin p).filtered = (inputs.count[p]).filtered)
      ∧ (¬applies → t = { s with inputs := inputs })
      ∧ (applies → c.resyncPending = false → -(2 ^ 31) ≤ next → next < 2 ^ 31 →
        t = { s with port := t.port, out := t.out, inputs := t.inputs, channels := t.channels, matrix := t.matrix }
        ∧ s.onlyNotifies t ∧ (t.chan k).value.toInt = next
        ∧ (∀ i : Fin 6, i ≠ k → t.chan i = s.chan i)
        ∧ (distance ≠ (c.active.final.toNat : Int) → (t.chan k).state = c.state)
        ∧ (distance = (c.active.final.toNat : Int) → (t.chan k).state = .complete ∧ (t.chan k).stallLeft = none
            ∧ (t.chan k).commitPending = false ∧ (t.chan k).arming.bits = 0#8)
        ∧ ((∀ x ∈ c.active.marks, c.active.position x ≠ distance) → distance ≠ (c.active.final.toNat : Int) →
            t = { s with
              inputs := inputs
              channels := s.channels.set k { c with
                value := BitVec.ofInt 32 next
                stallLeft := if c.state = .running then c.stallTime else c.stallLeft } })))
  -- R38, R39, R47: the candidates accepted; R32, R46: phase errors and steps in order
  ∧ ([0#2, 1#2, 2#2, 3#2].map countFilterTime = [0, 1, 2, 4])
  ∧ (∀ (s : State) (pins : BitVec 12),
      let due := fun p : Fin 12 =>
        let k := channelOfPin p
        let g := if p.val % 4 = 2 ∧ (s.chan (partner k)).active.mode = .span then partner k else k
        pins.getLsbD p.val = true ∧ s.inputs.restarted.getLsbD p.val = false
          ∧ (s.countPin p).heldFor (countFilterTime (s.chan g).active.countFilter)
      ∃ u, exec (.countFilterAccept pins) s =
          .next (channelNumbers.foldl (State.takeSteps s.inputs u) { s with inputs := u })
        ∧ u = { s.inputs with count := u.count }
        ∧ ∀ p : Fin 12, (due p → u.count[p] = (s.countPin p).flipped) ∧ (¬due p → u.count[p] = s.countPin p))
  ∧ (∀ (before after : FrontEnd) (s : State) (k : Fin 6),
      s.takeSteps before after k = (s.stepsOf before after k).foldl (State.takeStep k (s.chan k).gateOpen)
        (if s.phaseErrorOf before after k then
          { s with channels := s.channels.set k { s.chan k with phaseErrors := saturatingAdd (s.chan k).phaseErrors 1 } }
        else s))
  -- R40, R47: OFF, LENT and SPAN
  ∧ (∀ (before after : FrontEnd) (s : State) (k : Fin 6),
      let c := (s.chan k).active
      let edges := fun p : Fin 12 => match c.edge with
        | .rise => !before.count[p].filtered && after.count[p].filtered
        | .fall => before.count[p].filtered && !after.count[p].filtered
      (c.mode = .off ∨ (s.chan k).state = .lent →
        s.stepsOf before after k = [] ∧ s.phaseErrorOf before after k = false)
      ∧ ((s.chan k).state ≠ .lent → c.mode = .span → s.stepsOf before after k =
          (if edges (pinCA k) then [true] else []) ++ (if edges (pinCA (partner k)) then [false] else []))
      ∧ ((s.chan k).state ≠ .lent → c.mode ≠ .off → c.mode ≠ .span →
          s.stepsOf before after k = decodeSteps c before.count[pinCA k].filtered before.count[pinCB k].filtered
            after.count[pinCA k].filtered after.count[pinCB k].filtered)
      ∧ ((s.chan k).state ≠ .lent → c.mode ≠ .off →
          s.phaseErrorOf before after k = decodePhaseError c before.count[pinCA k].filtered before.count[pinCB k].filtered
            after.count[pinCA k].filtered after.count[pinCB k].filtered))
  -- R41 to R46: the decodes, true for HIGH and for a forward step
  ∧ (∀ (c : ChannelConfig) (a b a' b' : Bool),
      let counted := fun x x' : Bool => match c.edge with
        | .rise => !x && x'
        | .fall => x && !x'
      let forward := decide ([a, b, a', b'] ∈ [[false, false, true, false], [true, false, true, true],
        [true, true, false, true], [false, true, false, false]])
      let backward := decide ([a, b, a', b'] ∈ [[true, false, false, false], [true, true, true, false],
        [false, true, true, true], [false, false, false, true]])
      let error := (a ^^ a') && (b ^^ b')
      let moves := (if forward then [true] else []) ++ (if backward then [false] else [])
      (c.decode = .step → decodeSteps c a b a' b' = (if counted a a' then [true] else []) ∧ decodePhaseError c a b a' b' = false)
      ∧ (c.decode = .stepDir → decodeSteps c a b a' b' = (if counted a a' then [!b] else []) ∧ decodePhaseError c a b a' b' = false)
      ∧ (c.decode = .twoLine → decodePhaseError c a b a' b' = false
          ∧ decodeSteps c a b a' b' = (if counted a a' then [true] else []) ++ (if counted b b' then [false] else []))
      ∧ (c.decode = .quad4 → decodeSteps c a b a' b' = moves ∧ decodePhaseError c a b a' b' = error)
      ∧ (c.decode = .quad2 → decodeSteps c a b a' b' = (if b = b' then moves else []) ∧ decodePhaseError c a b a' b' = error)
      ∧ (c.decode = .quad1 → decodePhaseError c a b a' b' = error
          ∧ decodeSteps c a b a' b' = if b = b' ∧ a = false ∧ a' = true then [!b] else []))
  -- R78, R80, R84, R85, R92, R98, R131: one step, with the gate as it stood before the instant
  ∧ (∀ (s : State) (k : Fin 6) (gate forward : Bool),
      let c := s.chan k
      let applies := (c.state = .running ∨ c.state = .quenched) ∧ gate = true
        ∧ ¬(s.trip.permit = .tripped ∧ s.trip.config.policy = .freeze)
      let count := c.accumulator.toInt + (if forward then 1 else -1)
      let next := c.value.toInt + (if forward = decide (c.active.direction = .up) then 1 else -1)
      let progress := if c.active.direction = .up then next else (c.active.final.toNat : Int) - next
      let stall := if c.state = .running then c.stallTime else c.stallLeft
      let counting := c.active.mode = .tally ∨ c.active.mode = .span ∨ c.active.mode = .loop
      let moved := { s with channels := s.channels.set k { c with value := BitVec.ofInt 32 next, stallLeft := stall } }
      let marked := if c.state = .running then moved.fireMarks k progress else moved
      (¬applies → State.takeStep k gate s forward = s)
      ∧ (applies → c.active.mode = .pace → State.takeStep k gate s forward =
          { s with channels := s.channels.set k { c with
              accumulator := if -(2 ^ 31) ≤ count ∧ count < 2 ^ 31 then BitVec.ofInt 32 count else c.accumulator } })
      ∧ (applies → counting → c.resyncPending = true → State.takeStep k gate s forward =
          { s with channels := s.channels.set k { c with
              value := if c.active.direction = .up then 0#32 else 0#1 ++ c.active.final
              resyncPending := false
              stallLeft := stall } })
      ∧ (applies → counting → c.resyncPending = false →
          (¬(-(2 ^ 31) ≤ next ∧ next < 2 ^ 31) → State.takeStep k gate s forward = s.channelFault k .overflow)
          ∧ (-(2 ^ 31) ≤ next ∧ next < 2 ^ 31 → State.takeStep k gate s forward =
              if forward = false then moved
              else if progress ≠ (c.active.final.toNat : Int) then marked
              else if c.active.mode = .loop then marked.cycleEnd k
              else marked.completeRun k)))
  -- R115, R118 to R120: the marks of a step, under ALL and under SEQUENCE
  ∧ (∀ (s : State) (k : Fin 6) (p : Int), (s.chan k).active.marks.length ≤ 8 →
      let c := s.chan k
      let arm := fun (u : State) (a : Arming) => { u with channels := u.channels.set k { u.chan k with arming := a } }
      let reached := fun x : Mark × Nat => decide (c.active.position x.1 = p)
      (∀ f, c.arming = .flags f → s.fireMarks k p =
        (c.active.marks.zipIdx.filter fun x => f.getLsbD x.2 && reached x).foldl
          (fun u x => (arm u (.flags ((u.chan k).arming.bits &&& ~~~(1#8 <<< x.2)))).fireMark k x.2 x.1 c.value) s)
      ∧ (∀ i, c.arming = .head (some i) → s.fireMarks k p =
        ((c.active.marks.zipIdx.drop i).takeWhile reached).foldl
          (fun u x => arm (u.fireMark k x.2 x.1 c.value)
            (.head (if x.2 + 1 < c.active.marks.length then some (x.2 + 1) else none))) s)
      ∧ (c.arming = .head none → s.fireMarks k p = s))
  -- R87, R88: completion; R89 to R91, R169: cycle ends
  ∧ ∀ (s : State) (k : Fin 6),
      let c := s.chan k
      let index := c.cycleIndex + 1#16
      let u := { s with channels := s.channels.set k { c with cycleIndex := index } }
      let isFinal := c.active.repeats ≠ 0#16 ∧ c.active.repeats.toNat ≤ c.cycleIndex.toNat + 1
      let set := if c.commitPending then c.staged else c.active
      let completes := fun (t : State) (n : BitVec 16) =>
        t = { s with port := t.port, out := t.out, inputs := t.inputs, channels := t.channels, matrix := t.matrix }
        ∧ s.onlyNotifies t ∧ s.onlyRestarts t ∧ t.out.ordinal = s.out.ordinal + 1#16 ∧ t.matrix.shut = s.matrix.shut
        ∧ (∀ i : Fin 6, i ≠ k → t.chan i = s.chan i)
        ∧ t.chan k = { (if c.commitPending then c.withStagedActive s.inputs else c) with
            state := .complete, arming := Arming.disarmed set.order, stallLeft := none, cycleIndex := n }
        ∧ (∀ n : Fin 12, t.line n =
            if c.active.endPolicy = .release ∧ (s.line n).owner = .channel k ∧ (s.line n).pulseLeft = none then
              (s.line n).cleared
            else s.line n)
        ∧ ∀ j : Fin 6, t.pair j =
            let reference := s.line (evenLine j)
            if c.active.endPolicy = .release ∧ s.trip.permit = .permitted ∧ (s.pair j).paired = true
                ∧ reference.owner = .channel k ∧ reference.active = true ∧ reference.pulseLeft = none then
              (s.pair j).inGap
            else s.pair j
      let resumes := s.trip.config.autoChannel = some k ∧ s.trip.permit = .tripped ∧ s.enabledCauses = 0#32
      completes (s.completeRun k) c.cycleIndex
      ∧ (isFinal → s.cycleEnd k = u.finalCycleEnd k ∧ completes (s.cycleEnd k) index)
      ∧ (¬isFinal → s.cycleEnd k = u.wrap k ∧ ∃ t, s.cycleEnd k = t
        ∧ t = { s with
            port := t.port, out := t.out, inputs := t.inputs, channels := t.channels, matrix := t.matrix
            trip := { s.trip with permit := if resumes then .permitted else s.trip.permit } }
        ∧ s.onlyNotifies t ∧ s.onlyRestarts t ∧ s.onlyGaps t (decide resumes)
        ∧ t.out.ordinal = s.out.ordinal + (if resumes then 2#16 else 1#16)
        ∧ (∀ i : Fin 6, i ≠ k → t.chan i = s.chan i)
        ∧ t.chan k = { (if c.commitPending then c.withStagedActive s.inputs else c) with
            cycleIndex := index
            value := if set.mode.counting && set.direction == .down then 0#1 ++ set.final else 0#32
            arming := if c.state = .running then set.armAll else Arming.disarmed set.order
            stallLeft :=
              if c.commitPending = false ∨ c.state ≠ .running then c.stallLeft
              else if s.inputs.gateLevel set.gate = false ∨ set.stall = 0#8 then none
              else if c.gateOpen = false ∨ set.stall ≠ c.active.stall then some (set.stall.toNat * tenMilliseconds)
              else c.stallLeft })

/-- R32, R49, R52, R54, R83, R86, R92 to R95, R97, R104, R116, R117, R126, R128, R142 and R166: the accepted DIN levels
give every channel its held values; a rise of the start, quench or restart term moves a channel from ARMED, RUNNING or
QUENCHED, a rise of the resync term sets the resync-pending flag of a counting LOOP channel, and a capture-source event
is the last of a channel's evaluations, taken when the channel then counts. A frozen channel keeps its state, flag and
captures. Then, in general: the channels are evaluated in order, 0 to 5; what the evaluation of one channel takes and in
which order; and the whole effect of each edge, on the channel's timers and marks, its lines, the ordinal and the
notice. -/
def Obligations.TermRisesMoveChannels : Prop :=
  (∀ (s : State) (pins : BitVec 8),
    (∃ n : Fin 8, pins.getLsbD n.val = true ∧ (s.dinPin n).input.heldFor (dinFilterTime (s.dinPin n).code)) →
    ∃ t, exec (.dinFilterAccept pins) s = .next t ∧ t.inputs.count = s.inputs.count ∧ s.onlyNotifies t
      ∧ t = ([0, 1, 2, 3, 4, 5] : List (Fin 6)).foldl (State.evaluateChannel s.inputs) { s with inputs := t.inputs }
      ∧ t.inputs.restarted = s.inputs.restarted
      ∧ t = { s with port := t.port, out := t.out, inputs := t.inputs, channels := t.channels, matrix := t.matrix }
      ∧ (∀ n : Fin 8, pins.getLsbD n.val = true → (s.dinPin n).input.heldFor (dinFilterTime (s.dinPin n).code) →
          t.dinPin n = ⟨(s.dinPin n).input.flipped, (s.dinPin n).code, (s.dinPin n).invert⟩)
      ∧ (∀ n : Fin 8, pins.getLsbD n.val = false ∨ ¬(s.dinPin n).input.heldFor (dinFilterTime (s.dinPin n).code) →
          t.dinPin n = s.dinPin n)
      ∧ ∀ k : Fin 6,
        let c := s.chan k
        let start := !c.heldStart && t.inputs.termValue c.active.startTerm
        let quench := !c.heldQuench && t.inputs.termValue c.active.quenchTerm
        let restart := !c.heldRestart && t.inputs.termValue c.active.restartTerm
        let resync := !c.heldResync && t.inputs.termValue c.active.resyncTerm
        let before := fun n : Fin 8 => (s.dinPin n).input.filtered ^^ (s.dinPin n).invert
        let after := fun n : Fin 8 => (t.dinPin n).input.filtered ^^ (t.dinPin n).invert
        let captures := match c.active.captureSource with
          | none => false
          | some x => match x.edge with
            | .rise => !before x.din && after x.din
            | .fall => before x.din && !after x.din
            | .both => before x.din ^^ after x.din
        let counts := (t.chan k).state = .running ∨ (t.chan k).state = .quenched
        t.heldWf k ∧ (t.chan k).value = c.value ∧ (t.chan k).active = c.active ∧ (t.chan k).staged = c.staged
        ∧ (t.chan k).cycleIndex = c.cycleIndex ∧ (t.chan k).accumulator = c.accumulator
        ∧ (s.frozen k = true → (t.chan k).state = c.state ∧ (t.chan k).captures = c.captures
            ∧ (t.chan k).overcapture = c.overcapture ∧ (t.chan k).resyncPending = c.resyncPending)
        ∧ (s.frozen k = false →
          (c.state = .armed → quench = false → (t.chan k).state = if start then .running else .armed)
          ∧ (c.state = .armed → start = true → quench = true → restart = false → (t.chan k).state = .quenched)
          ∧ (c.state = .running → restart = false → (t.chan k).state = if quench then .quenched else .running)
          ∧ (c.state = .quenched → (t.chan k).state = if restart then .running else .quenched)
          ∧ (c.state.live = false → (t.chan k).state = c.state)
          ∧ (t.chan k).resyncPending = (c.resyncPending || (resync && decide (c.active.mode = .loop ∧ counts)))
          ∧ (captures = false ∨ ¬counts → (t.chan k).captures = c.captures ∧ (t.chan k).overcapture = c.overcapture)
          ∧ (captures = true → counts → c.captures.length < 4 → ∃ r : CaptureRecord, (t.chan k).captures = c.captures ++ [r]
              ∧ r.cause = 0#4 ∧ r.value = (if c.active.mode = .pace then c.accumulator else c.value)
              ∧ r.index = (match c.active.mode with
                | .loop => c.cycleIndex.setWidth 12
                | .pace => c.windowCount.setWidth 12
                | .off | .tally | .span => 0#12))
          ∧ (captures = true → counts → 4 ≤ c.captures.length → (t.chan k).captures = c.captures
              ∧ (t.chan k).overcapture = saturatingAdd c.overcapture 1)))
  -- R32, R52, R54, R86, R95, R97, R166: the evaluation of one channel
  ∧ (∀ (before : FrontEnd) (s : State) (k : Fin 6),
      let c := s.chan k
      let gate := s.inputs.gateLevel c.active.gate
      let full := c.active.stall.toNat * tenMilliseconds
      let level := fun (f : FrontEnd) (n : Fin 8) => f.din[n].input.filtered ^^ f.din[n].invert
      let rises := fun (held : Bool) (x : Term) => !held && s.inputs.termValue x
      let captures := match c.active.captureSource with
        | none => false
        | some x => match x.edge with
          | .rise => !level before x.din && level s.inputs x.din
          | .fall => level before x.din && !level s.inputs x.din
          | .both => level before x.din ^^ level s.inputs x.din
      let u : State := { s with channels := s.channels.set k { c with
        heldStart := s.inputs.termValue c.active.startTerm
        heldRestart := s.inputs.termValue c.active.restartTerm
        heldQuench := s.inputs.termValue c.active.quenchTerm
        heldResync := s.inputs.termValue c.active.resyncTerm
        gateOpen := gate
        stallLeft :=
          if c.state ≠ .running then c.stallLeft
          else if gate = false ∨ c.active.stall = 0#8 then none
          else if c.gateOpen = false then some full
          else c.stallLeft } }
      let started := if rises c.heldStart c.active.startTerm then u.startEdge k else u
      let quenched := if rises c.heldQuench c.active.quenchTerm then started.quenchEdge k else started
      let restarted := if rises c.heldRestart c.active.restartTerm then quenched.restartEdge k else quenched
      let resynced := if rises c.heldResync c.active.resyncTerm then restarted.resyncEdge k else restarted
      State.evaluateChannel before s k =
        if s.trip.permit = .tripped ∧ s.trip.config.policy = .freeze ∧ c.state.live = true then u
        else if captures then resynced.captureEdge k
        else resynced)
  -- R83, R92 to R95, R104, R126, R128: each edge
  ∧ ∀ (s : State) (k : Fin 6),
      let c := s.chan k
      let told := fun (t : State) (old new : BitVec 4) (cause : BitVec 3) =>
        let stamped : State := { t with out := { t.out with ordinal := t.out.ordinal + 1#16 } }
        if c.active.notifyState then
          stamped.offer ⟨.state, channelField k, [0#5 ++ cause ++ old ++ new ++ t.out.ordinal, c.value]⟩
        else stamped
      let becomes := fun d : Channel => ({ s with channels := s.channels.set k d } : State)
      (c.state = .armed → s.startEdge k = told (becomes { c with
          state := .running, stallLeft := c.stallTime
          windowLeft := if c.active.mode = .pace then some ⟨windowTime c.active.window, c.active.window⟩ else c.windowLeft })
        2#4 3#4 1#3)
      ∧ (c.state ≠ .armed → s.startEdge k = s)
      ∧ (c.state = .running → ∃ v, s.quenchEdge k = told v 3#4 4#4 2#3
        ∧ v = { becomes { c with state := .quenched, arming := Arming.disarmed c.active.order, stallLeft := none } with
            matrix := v.matrix }
        ∧ s.onlyReleases v fun i => i == k)
      ∧ (c.state ≠ .running → s.quenchEdge k = s)
      ∧ (c.state = .quenched → s.restartEdge k = told (becomes { c with
          state := .running, stallLeft := c.stallTime
          arming := if c.active.mode.counting then c.active.armAhead (c.active.progress c.value) else c.active.armAll })
        4#4 3#4 3#3)
      ∧ (c.state ≠ .quenched → s.restartEdge k = s)
      ∧ s.resyncEdge k = (if c.active.mode = .loop ∧ (c.state = .running ∨ c.state = .quenched) then
          becomes { c with resyncPending := true } else s)
      ∧ s.captureEdge k = (if c.state = .running ∨ c.state = .quenched then
          s.captureAttempt k 0#4 (if c.active.mode = .pace then c.accumulator else c.value) else s)

/-- R39, R97, R98, R99, R142, R162, R164 and R180: the stall timer of a channel at zero, while it is not frozen, faults the
channel, with its value kept, its lines released and one occurrence recorded; with fault_trips a PERMITTED permit is
withdrawn. An overflow faults a channel in the same way. -/
def Obligations.StallExpiryFaultsChannel : Prop :=
  (∀ (s : State) (k : Fin 6), (s.chan k).stallLeft = some 0 → s.frozen k = false →
    ∃ t, exec (.stallExpiry k) s = .next t ∧ s.channelFaulted t k .stall)
  ∧ ∀ (s : State) (k : Fin 6) (fault : ChannelFault), s.channelFaulted (s.channelFault k fault) k fault

/-- R74, R121, R122, R131, R132, R134 and R136: a window timer at zero ends the window: the sample enters the ring, the
accumulator starts at 0, in RUNNING the armed marks that the sample crosses fire in list order, a pending commit is
applied, the window end takes the next ordinal and offers its notice, and the next window starts with the length now
active. -/
def Obligations.WindowEndTakesSample : Prop :=
  ([WindowLength.w10, .w100, .w1000].map windowTime = [20000, 200000, 2000000])
  ∧ ∀ (s : State) (k : Fin 6) (length : WindowLength), (s.chan k).windowLeft = some ⟨0, length⟩ →
    (s.chan k).state.counts = true → s.frozen k = false →
    let c := s.chan k
    let previous := (c.ring.headD 0#32).toInt
    let sample := c.accumulator.toInt
    let fires := fun x : Mark × Nat => c.arming.bits.getLsbD x.2 && match x.1.crossing with
      | .rising => decide (previous < x.1.target.toInt ∧ x.1.target.toInt ≤ sample)
      | .falling => decide (x.1.target.toInt ≤ previous ∧ sample < x.1.target.toInt)
    let d : Channel :=
      { c with windowCount := c.windowCount + 1#16, ring := (c.accumulator :: c.ring).take 4, accumulator := 0#32 }
    let sampled : State := { s with channels := s.channels.set k d }
    let marked := if c.state = .running then
        (c.active.marks.zipIdx.filter fires).foldl (fun u x => u.fireMark k x.2 x.1 c.accumulator) sampled
      else sampled
    let copied := marked.pendingCopy k
    let stamped : State := { copied with
      out := { copied.out with ordinal := copied.out.ordinal + 1#16 }
      channels := copied.channels.set k { copied.chan k with lastWindowOrdinal := copied.out.ordinal } }
    let told := if c.active.notifyRate then
        stamped.offer ⟨.rateSample, channelField k,
          [(c.windowCount + 1#16) ++ copied.out.ordinal, c.accumulator,
           0#29 ++ BitVec.ofBool (c.state == .quenched) ++ (match length with | .w10 => 0#2 | .w100 => 1#2 | .w1000 => 2#2)]⟩
      else stamped
    let next : Channel :=
      { told.chan k with windowLeft := some ⟨windowTime (told.chan k).active.window, (told.chan k).active.window⟩ }
    ∃ t, exec (.windowEnd k) s = .next t
      ∧ (∀ i : Fin 6, i ≠ k → t.chan i = s.chan i)
      ∧ (t.chan k).windowCount = c.windowCount + 1#16 ∧ (t.chan k).ring = (c.accumulator :: c.ring).take 4
      ∧ (t.chan k).accumulator = 0#32 ∧ (t.chan k).state = c.state ∧ (t.chan k).value = c.value
      ∧ (t.chan k).commitPending = false ∧ (t.chan k).active = (if c.commitPending then c.staged else c.active)
      ∧ (t.chan k).windowLeft = some ⟨windowTime (t.chan k).active.window, (t.chan k).active.window⟩
      ∧ (t.chan k).lastWindowOrdinal = t.out.ordinal - 1#16
      ∧ t = { s with port := t.port, out := t.out, inputs := t.inputs, channels := t.channels, matrix := t.matrix }
      ∧ s.onlyNotifies t ∧ t.inputs.din = s.inputs.din ∧ (∀ p : Fin 12, (t.countPin p).filtered = (s.countPin p).filtered)
      ∧ (∀ n : Fin 12, (t.line n).owner = (s.line n).owner ∧ (t.line n).safe = (s.line n).safe
          ∧ (t.line n).inverted = (s.line n).inverted)
      ∧ (c.state = .quenched → t.matrix = s.matrix ∧ t.out.ordinal = s.out.ordinal + 1#16
          ∧ (t.chan k).captures = c.captures)
      ∧ (t.chan k).arming = (if c.commitPending then
          (if c.state = .running then c.staged.armAll else Arming.disarmed c.staged.order) else c.arming)
      ∧ t = { told with channels := told.channels.set k next }

/-! ### Notices (R27 to R31) -/

/-- R27, R28 and R30: an offered notice that is not admitted is lost and counted in its class. One that is admitted
enters at the tail with the sequence number; losses so far are reported by a LOSS notice in front of it, which clears
them, if both have room; if only one has, the LOSS notice enters and the notice is lost and counted anew. Then which
notice, with which body, each event offers, and the ordinal that the event takes: R127, R128 and R130 for a capture
attempt, R122 and R123 for a firing mark, R102 and R103 for run ends and cycle ends, R104 for a change of state by a
term, R163 and R175 for a withdrawal, R168, R169 and R176 for a grant, R178, R180 and R182 for a fault occurrence. -/
def Obligations.OfferedNoticeEntersOrIsLost : Prop :=
  (∀ (s : State) (kind : NoticeKind) (channel : BitVec 4) (body : List Word), kind ≠ .loss →
    let n : Notice := ⟨kind, channel, body⟩
    let room := fun more : Nat => s.out.noticeCount + more < 24 ∧ s.out.rnq.length + more + (if s.out.reserved then 1 else 0) < 32
    let lost := s.out.lostMark ≠ 0#8 ∨ s.out.lostRun ≠ 0#8 ∨ s.out.lostData ≠ 0#8 ∨ s.out.lostSafety ≠ 0#8
    let loss : Message := ⟨makeHead 0xC8#8 s.out.sequence 15#4 2 0#9,
      [body.headD 0#32 &&& 0xFFFF#32, s.out.lostSafety ++ s.out.lostData ++ s.out.lostRun ++ s.out.lostMark]⟩
    (¬room 0 → s.offer n = { s with
      port := { s.port with noticeLostSticky := true }
      out := match kind with
        | .markHit => { s.out with lostMark := saturatingAdd s.out.lostMark 1 }
        | .runEnd | .cycleEnd | .state => { s.out with lostRun := saturatingAdd s.out.lostRun 1 }
        | .capture | .rateSample => { s.out with lostData := saturatingAdd s.out.lostData 1 }
        | .fault | .trip | .permit => { s.out with lostSafety := saturatingAdd s.out.lostSafety 1 }
        | .loss => s.out })
    ∧ (room 0 → ¬lost → s.offer n = { s with out := { s.out with
        rnq := s.out.rnq ++ [n.message s.out.sequence], sequence := s.out.sequence + 1#8 } })
    ∧ (room 1 → lost → s.offer n = { s with out := { s.out with
        rnq := s.out.rnq ++ [loss, n.message (s.out.sequence + 1#8)], sequence := s.out.sequence + 2#8
        lostMark := 0#8, lostRun := 0#8, lostData := 0#8, lostSafety := 0#8 } })
    ∧ (room 0 → ¬room 1 → lost → s.offer n = { s with
      port := { s.port with noticeLostSticky := true }
      out := { s.out with
        rnq := s.out.rnq ++ [loss], sequence := s.out.sequence + 1#8
        lostMark := if kind = .markHit then 1#8 else 0#8
        lostRun := if kind = .runEnd ∨ kind = .cycleEnd ∨ kind = .state then 1#8 else 0#8
        lostData := if kind = .capture ∨ kind = .rateSample then 1#8 else 0#8
        lostSafety := if kind = .fault ∨ kind = .trip ∨ kind = .permit then 1#8 else 0#8 } }))
  -- R30: the head of a notice
  ∧ (∀ (kind : NoticeKind) (channel : BitVec 4) (body : List Word) (tag : Byte), body.length ≤ 7 →
      (Notice.message ⟨kind, channel, body⟩ tag) =
        ⟨(match kind with
            | .markHit => 0xC0#8
            | .runEnd => 0xC1#8
            | .cycleEnd => 0xC2#8
            | .capture => 0xC3#8
            | .rateSample => 0xC4#8
            | .fault => 0xC5#8
            | .trip => 0xC6#8
            | .permit => 0xC7#8
            | .loss => 0xC8#8
            | .state => 0xC9#8) ++ tag ++ channel ++ BitVec.ofNat 3 body.length ++ 0#9, body⟩)
  -- R127, R128, R130: a capture attempt
  ∧ (∀ (s : State) (k : Fin 6) (cause : BitVec 4) (value : Word), (s.chan k).captures.length ≤ 4 →
      let c := s.chan k
      let r : CaptureRecord := ⟨value, match c.active.mode with
        | .loop => c.cycleIndex.setWidth 12
        | .pace => c.windowCount.setWidth 12
        | .off | .tally | .span => 0#12, cause, s.out.ordinal⟩
      let dropped := decide (c.captures.length = 4)
      let d := if dropped then { c with overcapture := saturatingAdd c.overcapture 1 } else { c with captures := c.captures ++ [r] }
      let stamped : State :=
        { s with out := { s.out with ordinal := s.out.ordinal + 1#16 }, channels := s.channels.set k d }
      s.captureAttempt k cause value = stamped.offer ⟨.capture, channelField k,
        [0#8 ++ cause ++ BitVec.ofBool dropped ++ BitVec.ofNat 3 d.captures.length ++ s.out.ordinal, value]⟩)
  -- R122, R123: a firing mark
  ∧ (∀ (s : State) (k : Fin 6) (i : Nat) (m : Mark) (value : Word), i < 8 →
      let acted := match m.line, m.action with
        | some n, .set => s.lineAction n .set
        | some n, .clear => s.lineAction n .clear
        | some n, .toggle => s.lineAction n .toggle
        | some n, .pulse => s.lineAction n (.pulse m.width)
        | none, _ | some _, .nothing => s
      let u := if m.capture then acted.captureAttempt k (BitVec.ofNat 4 (i + 1)) value else acted
      let c := u.chan k
      let stamped := { u with out := { u.out with ordinal := u.out.ordinal + 1#16 } }
      s.fireMark k i m value = if m.notify then
          stamped.offer ⟨.markHit, channelField k,
            [0#12 ++ BitVec.ofBool (c.active.mode == .pace && m.crossing == .falling) ++ BitVec.ofNat 3 i ++ u.out.ordinal,
             value,
             0#16 ++ (match c.active.mode with
              | .loop => c.cycleIndex
              | .pace => c.windowCount
              | .off | .tally | .span => 0#16)]⟩
        else stamped)
  -- R87, R91, R90, R102, R103: run ends and cycle ends
  ∧ (∀ (s : State) (k : Fin 6),
      let t := s.enterComplete k
      let c := t.chan k
      let stamped := { t with out := { t.out with ordinal := t.out.ordinal + 1#16 } }
      let ended : Notice := ⟨.runEnd, channelField k,
        [0#14 ++ (if (s.chan k).state = .quenched then 2#2 else 1#2) ++ t.out.ordinal, c.value,
         0#16 ++ (if c.active.mode = .loop then c.cycleIndex else 0#16)]⟩
      s.completeRun k = (stamped.offer ended).pendingCopy k
      ∧ s.finalCycleEnd k =
        ((if c.active.notifyCycles then stamped.offer ⟨.cycleEnd, channelField k, [c.cycleIndex ++ t.out.ordinal, 1#32]⟩
          else stamped).offer ended).pendingCopy k
      ∧ s.wrap k =
        let u := ({ s with out := { s.out with ordinal := s.out.ordinal + 1#16 } } : State).pendingCopy k
        let v : State := { u with channels := u.channels.set k { u.chan k with
          value := (u.chan k).active.loadValue
          arming := if (u.chan k).state = .running then (u.chan k).active.armAll
            else Arming.disarmed (u.chan k).active.order } }
        let w : State := if (s.chan k).active.notifyCycles then
            v.offer ⟨.cycleEnd, channelField k, [(s.chan k).cycleIndex ++ s.out.ordinal, 0#32]⟩
          else v
        if w.trip.config.autoChannel = some k ∧ w.trip.permit = .tripped ∧ w.enabledCauses = 0#32 then w.grant (some k) else w)
  -- R104: a change of state by a term
  ∧ (∀ (s : State) (k : Fin 6),
      let told := fun (t : State) (old new : BitVec 4) (cause : BitVec 3) =>
        let stamped := { t with out := { t.out with ordinal := t.out.ordinal + 1#16 } }
        if (t.chan k).active.notifyState then
          stamped.offer ⟨.state, channelField k, [0#5 ++ cause ++ old ++ new ++ t.out.ordinal, (t.chan k).value]⟩
        else stamped
      ((s.chan k).state = .armed → s.startEdge k = told (s.modChan k Channel.beginRun) 2#4 3#4 1#3)
      ∧ ((s.chan k).state = .running → s.quenchEdge k = told (s.enterQuenched k) 3#4 4#4 2#3)
      ∧ ((s.chan k).state = .quenched → s.restartEdge k = told (s.restartChannel k) 4#4 3#4 3#3))
  -- R163, R175: a withdrawal
  ∧ (∀ (s : State) (source : TripSource),
      let t := s.setPermit .tripped
      let stamped := { t with
        out := { t.out with ordinal := t.out.ordinal + 1#16 }, trip := { t.trip with last := some ⟨source, t.out.ordinal⟩ } }
      s.withdraw source = stamped.offer ⟨.trip, 15#4,
        [0#8 ++ BitVec.ofBool (s.trip.config.policy == .freeze) ++ (match source with
            | .overload b => BitVec.ofNat 3 b.val
            | .channelFault k => BitVec.ofNat 3 k.val
            | .tripIn | .supply | .hostLost | .soft => 0#3) ++ 0#1 ++ (match source with
            | .tripIn => 1#3
            | .overload _ => 2#3
            | .supply => 3#3
            | .hostLost => 4#3
            | .soft => 5#3
            | .channelFault _ => 6#3) ++ t.out.ordinal,
         0#4 ++ t.enabledCauses.setWidth 12 ++ (t.out.ordinal - 1#16)]⟩)
  -- R168, R169, R176: a grant
  ∧ (∀ (s : State) (auto : Option (Fin 6)),
      let t := s.setPermit .permitted
      s.grant auto = { t with out := { t.out with ordinal := t.out.ordinal + 1#16 } }.offer ⟨.permit, 15#4,
        [0#9 ++ (match auto with | some k => BitVec.ofNat 3 k.val | none => 0#3) ++ 0#1
            ++ BitVec.ofBool (s.trip.permit == Permit.tripped) ++ (if auto.isSome then 2#2 else 1#2) ++ t.out.ordinal,
         0#20 ++ (t.presentCauses.setWidth 12 &&& ~~~t.enabledCauses.setWidth 12)]⟩)
  -- R178, R180, R182: a fault occurrence
  ∧ ∀ (s : State) (source : LedgerSource) (kind : LedgerKind) (present : Bool),
      let t := { s with out := { s.out with ordinal := s.out.ordinal + 1#16 } }
      let r : LedgerRecord := ⟨s.out.ordinal, source, kind, present, 0#4⟩
      let channel := match source with
        | .channel k => BitVec.ofNat 4 k.val
        | .bank _ | .tripIn | .host | .supply | .soft => 15#4
      let told := fun (u : State) (unrecorded : Bool) => u.offer ⟨.fault, channel,
        [0#7 ++ BitVec.ofNat 5 u.ledger.records.length ++ 0#3 ++ BitVec.ofBool unrecorded ++ s.out.ordinal,
         0#8 ++ BitVec.ofBool present ++ (match kind with
            | .stall => 1#3
            | .overflow => 2#3
            | .overload => 3#3
            | .supplyLoss => 4#3
            | .tripInput => 5#3
            | .softTrip => 6#3
            | .hostLost => 7#3) ++ (match source with
            | .channel k => BitVec.ofNat 4 k.val
            | .bank b => BitVec.ofNat 4 (8 + b.val)
            | .tripIn => 12#4
            | .host => 13#4
            | .supply => 14#4
            | .soft => 15#4) ++ s.out.ordinal]⟩
      s.ledger.records.length ≤ 16 →
      ((∃ x ∈ s.ledger.records, x.source = source ∧ x.kind = kind) → s.faultOccurrence source kind present =
        { t with ledger := { s.ledger with records := s.ledger.records.map fun x =>
            if x.source = source ∧ x.kind = kind then
              { x with repeats := if x.repeats = 15#4 then 15#4 else x.repeats + 1#4, active := present || x.active }
            else x } })
      ∧ ((∀ x ∈ s.ledger.records, ¬(x.source = source ∧ x.kind = kind)) → s.faultOccurrence source kind present =
        if s.ledger.records.length < 16 then
          told { t with ledger := { s.ledger with records := s.ledger.records ++ [r] } } false
        else told { t with ledger := { s.ledger with lost := true } } true)

/-! ### What every step keeps -/

/-- R7, R9, R11, R19, R26 and R27: every step keeps the queues within their capacities and every message whole. -/
def Obligations.QueuesStayWithinCapacity : Prop :=
  ∀ s t : State, s.queuesWf → step s = .next t → t.queuesWf

/-- R6, R187 and R190: every step keeps all state at its power-on value while ready is 0. -/
def Obligations.NotReadyMeansPowerOnValues : Prop :=
  ∀ s t : State, s.quietUnlessReady → step s = .next t → t.quietUnlessReady

/-- R69, R76, R97, R107, R125, R131 and R132: every step keeps the conditions of a channel by itself (at most 8 marks
in either list, 4 capture records and 4 samples, timers that run only where they may) and the lending of odd channels. -/
def Obligations.ChannelsStayConsistent : Prop :=
  ∀ s t : State, s.channelsWf → step s = .next t → t.channelsWf

/-- R73, R114, R138, R144, R145 and R148: every step keeps the line table sound: only ACTIVE lines pulse, unowned
lines are INACTIVE, a pair has one owner, its safe levels never clash, marks act on their channel's own lines, and the pins
held through an instant never show both lines of a pair active. -/
def Obligations.LineTableStaysSound : Prop :=
  ∀ s t : State, s.channelsWf → s.linesWf → step s = .next t → t.linesWf

/-- R99, R159, R161, R162, R178 and R179: every step keeps the permit safe and the ledger true: PERMITTED only while no
enabled cause is present, one record for each trouble, ACTIVE exactly while its cause is present. That OVLb and SUPPLY_OK owe
an assertion only while at their active level, and that a safety input that owes its assertion is not yet present, is
the model's (log entries 12 and 22). -/
def Obligations.PermitAndLedgerStayTrue : Prop :=
  ∀ s t : State, s.quietUnlessReady → s.channelsWf → s.tripWf → s.ledgerWf → step s = .next t → t.tripWf ∧ t.ledgerWf

/-- The state right after a power-on reset meets every condition that the steps keep. -/
def Obligations.ResetMeetsEveryCondition : Prop :=
  State.reset.queuesWf ∧ State.reset.quietUnlessReady ∧ State.reset.channelsWf ∧ State.reset.linesWf
    ∧ State.reset.tripWf ∧ State.reset.ledgerWf
end

