-- ==== Sys2Proof/Laws/State.lean ====
section
/-! SUPPORT. What each update of the state leaves at each field, true by rfl, so that no proof unfolds a record
update. -/

namespace Sys2Proof.Machine

/-! ### withPending -/

section
variable (s : State) (x : List Instr)
@[simp] theorem State.withPending_pending : (s.withPending x).pending = x := rfl
@[simp] theorem State.withPending_power : (s.withPending x).power = s.power := rfl
@[simp] theorem State.withPending_port : (s.withPending x).port = s.port := rfl
@[simp] theorem State.withPending_out : (s.withPending x).out = s.out := rfl
@[simp] theorem State.withPending_inputs : (s.withPending x).inputs = s.inputs := rfl
@[simp] theorem State.withPending_safety : (s.withPending x).safety = s.safety := rfl
@[simp] theorem State.withPending_channels : (s.withPending x).channels = s.channels := rfl
@[simp] theorem State.withPending_matrix : (s.withPending x).matrix = s.matrix := rfl
@[simp] theorem State.withPending_trip : (s.withPending x).trip = s.trip := rfl
@[simp] theorem State.withPending_ledger : (s.withPending x).ledger = s.ledger := rfl
@[simp] theorem State.withPending_sealLevel : (s.withPending x).sealLevel = s.sealLevel := rfl
@[simp] theorem State.withPending_instant : (s.withPending x).instant = s.instant := rfl
@[simp] theorem State.withPending_chan (k : Fin 6) : (s.withPending x).chan k = s.chan k := rfl
@[simp] theorem State.withPending_line (n : Fin 12) : (s.withPending x).line n = s.line n := rfl
@[simp] theorem State.withPending_pair (j : Fin 6) : (s.withPending x).pair j = s.pair j := rfl
@[simp] theorem State.withPending_countPin (p : Fin 12) : (s.withPending x).countPin p = s.countPin p := rfl
@[simp] theorem State.withPending_dinPin (n : Fin 8) : (s.withPending x).dinPin n = s.dinPin n := rfl
end

/-! ### withPower -/

section
variable (s : State) (x : Power)
@[simp] theorem State.withPower_pending : (s.withPower x).pending = s.pending := rfl
@[simp] theorem State.withPower_power : (s.withPower x).power = x := rfl
@[simp] theorem State.withPower_port : (s.withPower x).port = s.port := rfl
@[simp] theorem State.withPower_out : (s.withPower x).out = s.out := rfl
@[simp] theorem State.withPower_inputs : (s.withPower x).inputs = s.inputs := rfl
@[simp] theorem State.withPower_safety : (s.withPower x).safety = s.safety := rfl
@[simp] theorem State.withPower_channels : (s.withPower x).channels = s.channels := rfl
@[simp] theorem State.withPower_matrix : (s.withPower x).matrix = s.matrix := rfl
@[simp] theorem State.withPower_trip : (s.withPower x).trip = s.trip := rfl
@[simp] theorem State.withPower_ledger : (s.withPower x).ledger = s.ledger := rfl
@[simp] theorem State.withPower_sealLevel : (s.withPower x).sealLevel = s.sealLevel := rfl
@[simp] theorem State.withPower_instant : (s.withPower x).instant = s.instant := rfl
@[simp] theorem State.withPower_chan (k : Fin 6) : (s.withPower x).chan k = s.chan k := rfl
@[simp] theorem State.withPower_line (n : Fin 12) : (s.withPower x).line n = s.line n := rfl
@[simp] theorem State.withPower_pair (j : Fin 6) : (s.withPower x).pair j = s.pair j := rfl
@[simp] theorem State.withPower_countPin (p : Fin 12) : (s.withPower x).countPin p = s.countPin p := rfl
@[simp] theorem State.withPower_dinPin (n : Fin 8) : (s.withPower x).dinPin n = s.dinPin n := rfl
end

/-! ### withPort -/

section
variable (s : State) (x : HostPort)
@[simp] theorem State.withPort_pending : (s.withPort x).pending = s.pending := rfl
@[simp] theorem State.withPort_power : (s.withPort x).power = s.power := rfl
@[simp] theorem State.withPort_port : (s.withPort x).port = x := rfl
@[simp] theorem State.withPort_out : (s.withPort x).out = s.out := rfl
@[simp] theorem State.withPort_inputs : (s.withPort x).inputs = s.inputs := rfl
@[simp] theorem State.withPort_safety : (s.withPort x).safety = s.safety := rfl
@[simp] theorem State.withPort_channels : (s.withPort x).channels = s.channels := rfl
@[simp] theorem State.withPort_matrix : (s.withPort x).matrix = s.matrix := rfl
@[simp] theorem State.withPort_trip : (s.withPort x).trip = s.trip := rfl
@[simp] theorem State.withPort_ledger : (s.withPort x).ledger = s.ledger := rfl
@[simp] theorem State.withPort_sealLevel : (s.withPort x).sealLevel = s.sealLevel := rfl
@[simp] theorem State.withPort_instant : (s.withPort x).instant = s.instant := rfl
@[simp] theorem State.withPort_chan (k : Fin 6) : (s.withPort x).chan k = s.chan k := rfl
@[simp] theorem State.withPort_line (n : Fin 12) : (s.withPort x).line n = s.line n := rfl
@[simp] theorem State.withPort_pair (j : Fin 6) : (s.withPort x).pair j = s.pair j := rfl
@[simp] theorem State.withPort_countPin (p : Fin 12) : (s.withPort x).countPin p = s.countPin p := rfl
@[simp] theorem State.withPort_dinPin (n : Fin 8) : (s.withPort x).dinPin n = s.dinPin n := rfl
end

/-! ### withOut -/

section
variable (s : State) (x : Outbox)
@[simp] theorem State.withOut_pending : (s.withOut x).pending = s.pending := rfl
@[simp] theorem State.withOut_power : (s.withOut x).power = s.power := rfl
@[simp] theorem State.withOut_port : (s.withOut x).port = s.port := rfl
@[simp] theorem State.withOut_out : (s.withOut x).out = x := rfl
@[simp] theorem State.withOut_inputs : (s.withOut x).inputs = s.inputs := rfl
@[simp] theorem State.withOut_safety : (s.withOut x).safety = s.safety := rfl
@[simp] theorem State.withOut_channels : (s.withOut x).channels = s.channels := rfl
@[simp] theorem State.withOut_matrix : (s.withOut x).matrix = s.matrix := rfl
@[simp] theorem State.withOut_trip : (s.withOut x).trip = s.trip := rfl
@[simp] theorem State.withOut_ledger : (s.withOut x).ledger = s.ledger := rfl
@[simp] theorem State.withOut_sealLevel : (s.withOut x).sealLevel = s.sealLevel := rfl
@[simp] theorem State.withOut_instant : (s.withOut x).instant = s.instant := rfl
@[simp] theorem State.withOut_chan (k : Fin 6) : (s.withOut x).chan k = s.chan k := rfl
@[simp] theorem State.withOut_line (n : Fin 12) : (s.withOut x).line n = s.line n := rfl
@[simp] theorem State.withOut_pair (j : Fin 6) : (s.withOut x).pair j = s.pair j := rfl
@[simp] theorem State.withOut_countPin (p : Fin 12) : (s.withOut x).countPin p = s.countPin p := rfl
@[simp] theorem State.withOut_dinPin (n : Fin 8) : (s.withOut x).dinPin n = s.dinPin n := rfl
end

/-! ### withInputs -/

section
variable (s : State) (x : FrontEnd)
@[simp] theorem State.withInputs_pending : (s.withInputs x).pending = s.pending := rfl
@[simp] theorem State.withInputs_power : (s.withInputs x).power = s.power := rfl
@[simp] theorem State.withInputs_port : (s.withInputs x).port = s.port := rfl
@[simp] theorem State.withInputs_out : (s.withInputs x).out = s.out := rfl
@[simp] theorem State.withInputs_inputs : (s.withInputs x).inputs = x := rfl
@[simp] theorem State.withInputs_safety : (s.withInputs x).safety = s.safety := rfl
@[simp] theorem State.withInputs_channels : (s.withInputs x).channels = s.channels := rfl
@[simp] theorem State.withInputs_matrix : (s.withInputs x).matrix = s.matrix := rfl
@[simp] theorem State.withInputs_trip : (s.withInputs x).trip = s.trip := rfl
@[simp] theorem State.withInputs_ledger : (s.withInputs x).ledger = s.ledger := rfl
@[simp] theorem State.withInputs_sealLevel : (s.withInputs x).sealLevel = s.sealLevel := rfl
@[simp] theorem State.withInputs_instant : (s.withInputs x).instant = s.instant := rfl
@[simp] theorem State.withInputs_chan (k : Fin 6) : (s.withInputs x).chan k = s.chan k := rfl
@[simp] theorem State.withInputs_line (n : Fin 12) : (s.withInputs x).line n = s.line n := rfl
@[simp] theorem State.withInputs_pair (j : Fin 6) : (s.withInputs x).pair j = s.pair j := rfl
end

/-! ### withSafety -/

section
variable (s : State) (x : SafetyInputs)
@[simp] theorem State.withSafety_pending : (s.withSafety x).pending = s.pending := rfl
@[simp] theorem State.withSafety_power : (s.withSafety x).power = s.power := rfl
@[simp] theorem State.withSafety_port : (s.withSafety x).port = s.port := rfl
@[simp] theorem State.withSafety_out : (s.withSafety x).out = s.out := rfl
@[simp] theorem State.withSafety_inputs : (s.withSafety x).inputs = s.inputs := rfl
@[simp] theorem State.withSafety_safety : (s.withSafety x).safety = x := rfl
@[simp] theorem State.withSafety_channels : (s.withSafety x).channels = s.channels := rfl
@[simp] theorem State.withSafety_matrix : (s.withSafety x).matrix = s.matrix := rfl
@[simp] theorem State.withSafety_trip : (s.withSafety x).trip = s.trip := rfl
@[simp] theorem State.withSafety_ledger : (s.withSafety x).ledger = s.ledger := rfl
@[simp] theorem State.withSafety_sealLevel : (s.withSafety x).sealLevel = s.sealLevel := rfl
@[simp] theorem State.withSafety_instant : (s.withSafety x).instant = s.instant := rfl
@[simp] theorem State.withSafety_chan (k : Fin 6) : (s.withSafety x).chan k = s.chan k := rfl
@[simp] theorem State.withSafety_line (n : Fin 12) : (s.withSafety x).line n = s.line n := rfl
@[simp] theorem State.withSafety_pair (j : Fin 6) : (s.withSafety x).pair j = s.pair j := rfl
@[simp] theorem State.withSafety_countPin (p : Fin 12) : (s.withSafety x).countPin p = s.countPin p := rfl
@[simp] theorem State.withSafety_dinPin (n : Fin 8) : (s.withSafety x).dinPin n = s.dinPin n := rfl
end

/-! ### withChannels -/

section
variable (s : State) (x : Vector Channel 6)
@[simp] theorem State.withChannels_pending : (s.withChannels x).pending = s.pending := rfl
@[simp] theorem State.withChannels_power : (s.withChannels x).power = s.power := rfl
@[simp] theorem State.withChannels_port : (s.withChannels x).port = s.port := rfl
@[simp] theorem State.withChannels_out : (s.withChannels x).out = s.out := rfl
@[simp] theorem State.withChannels_inputs : (s.withChannels x).inputs = s.inputs := rfl
@[simp] theorem State.withChannels_safety : (s.withChannels x).safety = s.safety := rfl
@[simp] theorem State.withChannels_channels : (s.withChannels x).channels = x := rfl
@[simp] theorem State.withChannels_matrix : (s.withChannels x).matrix = s.matrix := rfl
@[simp] theorem State.withChannels_trip : (s.withChannels x).trip = s.trip := rfl
@[simp] theorem State.withChannels_ledger : (s.withChannels x).ledger = s.ledger := rfl
@[simp] theorem State.withChannels_sealLevel : (s.withChannels x).sealLevel = s.sealLevel := rfl
@[simp] theorem State.withChannels_instant : (s.withChannels x).instant = s.instant := rfl
@[simp] theorem State.withChannels_line (n : Fin 12) : (s.withChannels x).line n = s.line n := rfl
@[simp] theorem State.withChannels_pair (j : Fin 6) : (s.withChannels x).pair j = s.pair j := rfl
@[simp] theorem State.withChannels_countPin (p : Fin 12) : (s.withChannels x).countPin p = s.countPin p := rfl
@[simp] theorem State.withChannels_dinPin (n : Fin 8) : (s.withChannels x).dinPin n = s.dinPin n := rfl
end

/-! ### withMatrix -/

section
variable (s : State) (x : LineMatrix)
@[simp] theorem State.withMatrix_pending : (s.withMatrix x).pending = s.pending := rfl
@[simp] theorem State.withMatrix_power : (s.withMatrix x).power = s.power := rfl
@[simp] theorem State.withMatrix_port : (s.withMatrix x).port = s.port := rfl
@[simp] theorem State.withMatrix_out : (s.withMatrix x).out = s.out := rfl
@[simp] theorem State.withMatrix_inputs : (s.withMatrix x).inputs = s.inputs := rfl
@[simp] theorem State.withMatrix_safety : (s.withMatrix x).safety = s.safety := rfl
@[simp] theorem State.withMatrix_channels : (s.withMatrix x).channels = s.channels := rfl
@[simp] theorem State.withMatrix_matrix : (s.withMatrix x).matrix = x := rfl
@[simp] theorem State.withMatrix_trip : (s.withMatrix x).trip = s.trip := rfl
@[simp] theorem State.withMatrix_ledger : (s.withMatrix x).ledger = s.ledger := rfl
@[simp] theorem State.withMatrix_sealLevel : (s.withMatrix x).sealLevel = s.sealLevel := rfl
@[simp] theorem State.withMatrix_instant : (s.withMatrix x).instant = s.instant := rfl
@[simp] theorem State.withMatrix_chan (k : Fin 6) : (s.withMatrix x).chan k = s.chan k := rfl
@[simp] theorem State.withMatrix_countPin (p : Fin 12) : (s.withMatrix x).countPin p = s.countPin p := rfl
@[simp] theorem State.withMatrix_dinPin (n : Fin 8) : (s.withMatrix x).dinPin n = s.dinPin n := rfl
end

/-! ### withTrip -/

section
variable (s : State) (x : TripUnit)
@[simp] theorem State.withTrip_pending : (s.withTrip x).pending = s.pending := rfl
@[simp] theorem State.withTrip_power : (s.withTrip x).power = s.power := rfl
@[simp] theorem State.withTrip_port : (s.withTrip x).port = s.port := rfl
@[simp] theorem State.withTrip_out : (s.withTrip x).out = s.out := rfl
@[simp] theorem State.withTrip_inputs : (s.withTrip x).inputs = s.inputs := rfl
@[simp] theorem State.withTrip_safety : (s.withTrip x).safety = s.safety := rfl
@[simp] theorem State.withTrip_channels : (s.withTrip x).channels = s.channels := rfl
@[simp] theorem State.withTrip_matrix : (s.withTrip x).matrix = s.matrix := rfl
@[simp] theorem State.withTrip_trip : (s.withTrip x).trip = x := rfl
@[simp] theorem State.withTrip_ledger : (s.withTrip x).ledger = s.ledger := rfl
@[simp] theorem State.withTrip_sealLevel : (s.withTrip x).sealLevel = s.sealLevel := rfl
@[simp] theorem State.withTrip_instant : (s.withTrip x).instant = s.instant := rfl
@[simp] theorem State.withTrip_chan (k : Fin 6) : (s.withTrip x).chan k = s.chan k := rfl
@[simp] theorem State.withTrip_line (n : Fin 12) : (s.withTrip x).line n = s.line n := rfl
@[simp] theorem State.withTrip_pair (j : Fin 6) : (s.withTrip x).pair j = s.pair j := rfl
@[simp] theorem State.withTrip_countPin (p : Fin 12) : (s.withTrip x).countPin p = s.countPin p := rfl
@[simp] theorem State.withTrip_dinPin (n : Fin 8) : (s.withTrip x).dinPin n = s.dinPin n := rfl
end

/-! ### withLedger -/

section
variable (s : State) (x : Ledger)
@[simp] theorem State.withLedger_pending : (s.withLedger x).pending = s.pending := rfl
@[simp] theorem State.withLedger_power : (s.withLedger x).power = s.power := rfl
@[simp] theorem State.withLedger_port : (s.withLedger x).port = s.port := rfl
@[simp] theorem State.withLedger_out : (s.withLedger x).out = s.out := rfl
@[simp] theorem State.withLedger_inputs : (s.withLedger x).inputs = s.inputs := rfl
@[simp] theorem State.withLedger_safety : (s.withLedger x).safety = s.safety := rfl
@[simp] theorem State.withLedger_channels : (s.withLedger x).channels = s.channels := rfl
@[simp] theorem State.withLedger_matrix : (s.withLedger x).matrix = s.matrix := rfl
@[simp] theorem State.withLedger_trip : (s.withLedger x).trip = s.trip := rfl
@[simp] theorem State.withLedger_ledger : (s.withLedger x).ledger = x := rfl
@[simp] theorem State.withLedger_sealLevel : (s.withLedger x).sealLevel = s.sealLevel := rfl
@[simp] theorem State.withLedger_instant : (s.withLedger x).instant = s.instant := rfl
@[simp] theorem State.withLedger_chan (k : Fin 6) : (s.withLedger x).chan k = s.chan k := rfl
@[simp] theorem State.withLedger_line (n : Fin 12) : (s.withLedger x).line n = s.line n := rfl
@[simp] theorem State.withLedger_pair (j : Fin 6) : (s.withLedger x).pair j = s.pair j := rfl
@[simp] theorem State.withLedger_countPin (p : Fin 12) : (s.withLedger x).countPin p = s.countPin p := rfl
@[simp] theorem State.withLedger_dinPin (n : Fin 8) : (s.withLedger x).dinPin n = s.dinPin n := rfl
end

/-! ### withSeal -/

section
variable (s : State) (x : BitVec 2)
@[simp] theorem State.withSeal_pending : (s.withSeal x).pending = s.pending := rfl
@[simp] theorem State.withSeal_power : (s.withSeal x).power = s.power := rfl
@[simp] theorem State.withSeal_port : (s.withSeal x).port = s.port := rfl
@[simp] theorem State.withSeal_out : (s.withSeal x).out = s.out := rfl
@[simp] theorem State.withSeal_inputs : (s.withSeal x).inputs = s.inputs := rfl
@[simp] theorem State.withSeal_safety : (s.withSeal x).safety = s.safety := rfl
@[simp] theorem State.withSeal_channels : (s.withSeal x).channels = s.channels := rfl
@[simp] theorem State.withSeal_matrix : (s.withSeal x).matrix = s.matrix := rfl
@[simp] theorem State.withSeal_trip : (s.withSeal x).trip = s.trip := rfl
@[simp] theorem State.withSeal_ledger : (s.withSeal x).ledger = s.ledger := rfl
@[simp] theorem State.withSeal_sealLevel : (s.withSeal x).sealLevel = x := rfl
@[simp] theorem State.withSeal_instant : (s.withSeal x).instant = s.instant := rfl
@[simp] theorem State.withSeal_chan (k : Fin 6) : (s.withSeal x).chan k = s.chan k := rfl
@[simp] theorem State.withSeal_line (n : Fin 12) : (s.withSeal x).line n = s.line n := rfl
@[simp] theorem State.withSeal_pair (j : Fin 6) : (s.withSeal x).pair j = s.pair j := rfl
@[simp] theorem State.withSeal_countPin (p : Fin 12) : (s.withSeal x).countPin p = s.countPin p := rfl
@[simp] theorem State.withSeal_dinPin (n : Fin 8) : (s.withSeal x).dinPin n = s.dinPin n := rfl
end

/-! ### withInstant -/

section
variable (s : State) (x : Option (Vector PinLevel 12))
@[simp] theorem State.withInstant_pending : (s.withInstant x).pending = s.pending := rfl
@[simp] theorem State.withInstant_power : (s.withInstant x).power = s.power := rfl
@[simp] theorem State.withInstant_port : (s.withInstant x).port = s.port := rfl
@[simp] theorem State.withInstant_out : (s.withInstant x).out = s.out := rfl
@[simp] theorem State.withInstant_inputs : (s.withInstant x).inputs = s.inputs := rfl
@[simp] theorem State.withInstant_safety : (s.withInstant x).safety = s.safety := rfl
@[simp] theorem State.withInstant_channels : (s.withInstant x).channels = s.channels := rfl
@[simp] theorem State.withInstant_matrix : (s.withInstant x).matrix = s.matrix := rfl
@[simp] theorem State.withInstant_trip : (s.withInstant x).trip = s.trip := rfl
@[simp] theorem State.withInstant_ledger : (s.withInstant x).ledger = s.ledger := rfl
@[simp] theorem State.withInstant_sealLevel : (s.withInstant x).sealLevel = s.sealLevel := rfl
@[simp] theorem State.withInstant_instant : (s.withInstant x).instant = x := rfl
@[simp] theorem State.withInstant_chan (k : Fin 6) : (s.withInstant x).chan k = s.chan k := rfl
@[simp] theorem State.withInstant_line (n : Fin 12) : (s.withInstant x).line n = s.line n := rfl
@[simp] theorem State.withInstant_pair (j : Fin 6) : (s.withInstant x).pair j = s.pair j := rfl
@[simp] theorem State.withInstant_countPin (p : Fin 12) : (s.withInstant x).countPin p = s.countPin p := rfl
@[simp] theorem State.withInstant_dinPin (n : Fin 8) : (s.withInstant x).dinPin n = s.dinPin n := rfl
end

/-! ### setChan -/

section
variable (s : State) (i : Fin 6) (c : Channel)
@[simp] theorem State.setChan_pending : (s.setChan i c).pending = s.pending := rfl
@[simp] theorem State.setChan_power : (s.setChan i c).power = s.power := rfl
@[simp] theorem State.setChan_port : (s.setChan i c).port = s.port := rfl
@[simp] theorem State.setChan_out : (s.setChan i c).out = s.out := rfl
@[simp] theorem State.setChan_inputs : (s.setChan i c).inputs = s.inputs := rfl
@[simp] theorem State.setChan_safety : (s.setChan i c).safety = s.safety := rfl
@[simp] theorem State.setChan_matrix : (s.setChan i c).matrix = s.matrix := rfl
@[simp] theorem State.setChan_trip : (s.setChan i c).trip = s.trip := rfl
@[simp] theorem State.setChan_ledger : (s.setChan i c).ledger = s.ledger := rfl
@[simp] theorem State.setChan_sealLevel : (s.setChan i c).sealLevel = s.sealLevel := rfl
@[simp] theorem State.setChan_instant : (s.setChan i c).instant = s.instant := rfl
@[simp] theorem State.setChan_line (n : Fin 12) : (s.setChan i c).line n = s.line n := rfl
@[simp] theorem State.setChan_pair (j : Fin 6) : (s.setChan i c).pair j = s.pair j := rfl
@[simp] theorem State.setChan_countPin (p : Fin 12) : (s.setChan i c).countPin p = s.countPin p := rfl
@[simp] theorem State.setChan_dinPin (n : Fin 8) : (s.setChan i c).dinPin n = s.dinPin n := rfl
end

/-! ### modChan -/

section
variable (s : State) (i : Fin 6) (f : Channel → Channel)
@[simp] theorem State.modChan_pending : (s.modChan i f).pending = s.pending := rfl
@[simp] theorem State.modChan_power : (s.modChan i f).power = s.power := rfl
@[simp] theorem State.modChan_port : (s.modChan i f).port = s.port := rfl
@[simp] theorem State.modChan_out : (s.modChan i f).out = s.out := rfl
@[simp] theorem State.modChan_inputs : (s.modChan i f).inputs = s.inputs := rfl
@[simp] theorem State.modChan_safety : (s.modChan i f).safety = s.safety := rfl
@[simp] theorem State.modChan_matrix : (s.modChan i f).matrix = s.matrix := rfl
@[simp] theorem State.modChan_trip : (s.modChan i f).trip = s.trip := rfl
@[simp] theorem State.modChan_ledger : (s.modChan i f).ledger = s.ledger := rfl
@[simp] theorem State.modChan_sealLevel : (s.modChan i f).sealLevel = s.sealLevel := rfl
@[simp] theorem State.modChan_instant : (s.modChan i f).instant = s.instant := rfl
@[simp] theorem State.modChan_line (n : Fin 12) : (s.modChan i f).line n = s.line n := rfl
@[simp] theorem State.modChan_pair (j : Fin 6) : (s.modChan i f).pair j = s.pair j := rfl
@[simp] theorem State.modChan_countPin (p : Fin 12) : (s.modChan i f).countPin p = s.countPin p := rfl
@[simp] theorem State.modChan_dinPin (n : Fin 8) : (s.modChan i f).dinPin n = s.dinPin n := rfl
end

/-! ### setLine -/

section
variable (s : State) (i : Fin 12) (l : Line)
@[simp] theorem State.setLine_pending : (s.setLine i l).pending = s.pending := rfl
@[simp] theorem State.setLine_power : (s.setLine i l).power = s.power := rfl
@[simp] theorem State.setLine_port : (s.setLine i l).port = s.port := rfl
@[simp] theorem State.setLine_out : (s.setLine i l).out = s.out := rfl
@[simp] theorem State.setLine_inputs : (s.setLine i l).inputs = s.inputs := rfl
@[simp] theorem State.setLine_safety : (s.setLine i l).safety = s.safety := rfl
@[simp] theorem State.setLine_channels : (s.setLine i l).channels = s.channels := rfl
@[simp] theorem State.setLine_trip : (s.setLine i l).trip = s.trip := rfl
@[simp] theorem State.setLine_ledger : (s.setLine i l).ledger = s.ledger := rfl
@[simp] theorem State.setLine_sealLevel : (s.setLine i l).sealLevel = s.sealLevel := rfl
@[simp] theorem State.setLine_instant : (s.setLine i l).instant = s.instant := rfl
@[simp] theorem State.setLine_chan (k : Fin 6) : (s.setLine i l).chan k = s.chan k := rfl
@[simp] theorem State.setLine_countPin (p : Fin 12) : (s.setLine i l).countPin p = s.countPin p := rfl
@[simp] theorem State.setLine_dinPin (n : Fin 8) : (s.setLine i l).dinPin n = s.dinPin n := rfl
@[simp] theorem State.setLine_shut : (s.setLine i l).matrix.shut = s.matrix.shut := rfl
@[simp] theorem State.setLine_pairs : (s.setLine i l).matrix.pairs = s.matrix.pairs := rfl
@[simp] theorem State.setLine_pair (j : Fin 6) : (s.setLine i l).pair j = s.pair j := rfl
end

/-! ### setPair -/

section
variable (s : State) (i : Fin 6) (q : Pair)
@[simp] theorem State.setPair_pending : (s.setPair i q).pending = s.pending := rfl
@[simp] theorem State.setPair_power : (s.setPair i q).power = s.power := rfl
@[simp] theorem State.setPair_port : (s.setPair i q).port = s.port := rfl
@[simp] theorem State.setPair_out : (s.setPair i q).out = s.out := rfl
@[simp] theorem State.setPair_inputs : (s.setPair i q).inputs = s.inputs := rfl
@[simp] theorem State.setPair_safety : (s.setPair i q).safety = s.safety := rfl
@[simp] theorem State.setPair_channels : (s.setPair i q).channels = s.channels := rfl
@[simp] theorem State.setPair_trip : (s.setPair i q).trip = s.trip := rfl
@[simp] theorem State.setPair_ledger : (s.setPair i q).ledger = s.ledger := rfl
@[simp] theorem State.setPair_sealLevel : (s.setPair i q).sealLevel = s.sealLevel := rfl
@[simp] theorem State.setPair_instant : (s.setPair i q).instant = s.instant := rfl
@[simp] theorem State.setPair_chan (k : Fin 6) : (s.setPair i q).chan k = s.chan k := rfl
@[simp] theorem State.setPair_countPin (p : Fin 12) : (s.setPair i q).countPin p = s.countPin p := rfl
@[simp] theorem State.setPair_dinPin (n : Fin 8) : (s.setPair i q).dinPin n = s.dinPin n := rfl
@[simp] theorem State.setPair_shut : (s.setPair i q).matrix.shut = s.matrix.shut := rfl
@[simp] theorem State.setPair_lines : (s.setPair i q).matrix.lines = s.matrix.lines := rfl
@[simp] theorem State.setPair_line (n : Fin 12) : (s.setPair i q).line n = s.line n := rfl
end

/-! ### setShut -/

section
variable (s : State) (i : Fin 3) (b : Bool)
@[simp] theorem State.setShut_pending : (s.setShut i b).pending = s.pending := rfl
@[simp] theorem State.setShut_power : (s.setShut i b).power = s.power := rfl
@[simp] theorem State.setShut_port : (s.setShut i b).port = s.port := rfl
@[simp] theorem State.setShut_out : (s.setShut i b).out = s.out := rfl
@[simp] theorem State.setShut_inputs : (s.setShut i b).inputs = s.inputs := rfl
@[simp] theorem State.setShut_safety : (s.setShut i b).safety = s.safety := rfl
@[simp] theorem State.setShut_channels : (s.setShut i b).channels = s.channels := rfl
@[simp] theorem State.setShut_trip : (s.setShut i b).trip = s.trip := rfl
@[simp] theorem State.setShut_ledger : (s.setShut i b).ledger = s.ledger := rfl
@[simp] theorem State.setShut_sealLevel : (s.setShut i b).sealLevel = s.sealLevel := rfl
@[simp] theorem State.setShut_instant : (s.setShut i b).instant = s.instant := rfl
@[simp] theorem State.setShut_chan (k : Fin 6) : (s.setShut i b).chan k = s.chan k := rfl
@[simp] theorem State.setShut_countPin (p : Fin 12) : (s.setShut i b).countPin p = s.countPin p := rfl
@[simp] theorem State.setShut_dinPin (n : Fin 8) : (s.setShut i b).dinPin n = s.dinPin n := rfl
@[simp] theorem State.setShut_line (n : Fin 12) : (s.setShut i b).line n = s.line n := rfl
@[simp] theorem State.setShut_pair (j : Fin 6) : (s.setShut i b).pair j = s.pair j := rfl
end

/-! ### setCountPin -/

section
variable (s : State) (i : Fin 12) (x : FilteredInput)
@[simp] theorem State.setCountPin_pending : (s.setCountPin i x).pending = s.pending := rfl
@[simp] theorem State.setCountPin_power : (s.setCountPin i x).power = s.power := rfl
@[simp] theorem State.setCountPin_port : (s.setCountPin i x).port = s.port := rfl
@[simp] theorem State.setCountPin_out : (s.setCountPin i x).out = s.out := rfl
@[simp] theorem State.setCountPin_safety : (s.setCountPin i x).safety = s.safety := rfl
@[simp] theorem State.setCountPin_channels : (s.setCountPin i x).channels = s.channels := rfl
@[simp] theorem State.setCountPin_matrix : (s.setCountPin i x).matrix = s.matrix := rfl
@[simp] theorem State.setCountPin_trip : (s.setCountPin i x).trip = s.trip := rfl
@[simp] theorem State.setCountPin_ledger : (s.setCountPin i x).ledger = s.ledger := rfl
@[simp] theorem State.setCountPin_sealLevel : (s.setCountPin i x).sealLevel = s.sealLevel := rfl
@[simp] theorem State.setCountPin_instant : (s.setCountPin i x).instant = s.instant := rfl
@[simp] theorem State.setCountPin_chan (k : Fin 6) : (s.setCountPin i x).chan k = s.chan k := rfl
@[simp] theorem State.setCountPin_line (n : Fin 12) : (s.setCountPin i x).line n = s.line n := rfl
@[simp] theorem State.setCountPin_pair (j : Fin 6) : (s.setCountPin i x).pair j = s.pair j := rfl
@[simp] theorem State.setCountPin_din : (s.setCountPin i x).inputs.din = s.inputs.din := rfl
@[simp] theorem State.setCountPin_dinPin (n : Fin 8) : (s.setCountPin i x).dinPin n = s.dinPin n := rfl
end

/-! ### setDinPin -/

section
variable (s : State) (i : Fin 8) (x : DiscreteInput)
@[simp] theorem State.setDinPin_pending : (s.setDinPin i x).pending = s.pending := rfl
@[simp] theorem State.setDinPin_power : (s.setDinPin i x).power = s.power := rfl
@[simp] theorem State.setDinPin_port : (s.setDinPin i x).port = s.port := rfl
@[simp] theorem State.setDinPin_out : (s.setDinPin i x).out = s.out := rfl
@[simp] theorem State.setDinPin_safety : (s.setDinPin i x).safety = s.safety := rfl
@[simp] theorem State.setDinPin_channels : (s.setDinPin i x).channels = s.channels := rfl
@[simp] theorem State.setDinPin_matrix : (s.setDinPin i x).matrix = s.matrix := rfl
@[simp] theorem State.setDinPin_trip : (s.setDinPin i x).trip = s.trip := rfl
@[simp] theorem State.setDinPin_ledger : (s.setDinPin i x).ledger = s.ledger := rfl
@[simp] theorem State.setDinPin_sealLevel : (s.setDinPin i x).sealLevel = s.sealLevel := rfl
@[simp] theorem State.setDinPin_instant : (s.setDinPin i x).instant = s.instant := rfl
@[simp] theorem State.setDinPin_chan (k : Fin 6) : (s.setDinPin i x).chan k = s.chan k := rfl
@[simp] theorem State.setDinPin_line (n : Fin 12) : (s.setDinPin i x).line n = s.line n := rfl
@[simp] theorem State.setDinPin_pair (j : Fin 6) : (s.setDinPin i x).pair j = s.pair j := rfl
@[simp] theorem State.setDinPin_count : (s.setDinPin i x).inputs.count = s.inputs.count := rfl
@[simp] theorem State.setDinPin_countPin (p : Fin 12) : (s.setDinPin i x).countPin p = s.countPin p := rfl
end

/-! ### nextOrdinal -/

section
variable (s : State)
@[simp] theorem State.nextOrdinal_pending : s.nextOrdinal.pending = s.pending := rfl
@[simp] theorem State.nextOrdinal_power : s.nextOrdinal.power = s.power := rfl
@[simp] theorem State.nextOrdinal_port : s.nextOrdinal.port = s.port := rfl
@[simp] theorem State.nextOrdinal_inputs : s.nextOrdinal.inputs = s.inputs := rfl
@[simp] theorem State.nextOrdinal_safety : s.nextOrdinal.safety = s.safety := rfl
@[simp] theorem State.nextOrdinal_channels : s.nextOrdinal.channels = s.channels := rfl
@[simp] theorem State.nextOrdinal_matrix : s.nextOrdinal.matrix = s.matrix := rfl
@[simp] theorem State.nextOrdinal_trip : s.nextOrdinal.trip = s.trip := rfl
@[simp] theorem State.nextOrdinal_ledger : s.nextOrdinal.ledger = s.ledger := rfl
@[simp] theorem State.nextOrdinal_sealLevel : s.nextOrdinal.sealLevel = s.sealLevel := rfl
@[simp] theorem State.nextOrdinal_instant : s.nextOrdinal.instant = s.instant := rfl
@[simp] theorem State.nextOrdinal_chan (k : Fin 6) : s.nextOrdinal.chan k = s.chan k := rfl
@[simp] theorem State.nextOrdinal_line (n : Fin 12) : s.nextOrdinal.line n = s.line n := rfl
@[simp] theorem State.nextOrdinal_pair (j : Fin 6) : s.nextOrdinal.pair j = s.pair j := rfl
@[simp] theorem State.nextOrdinal_countPin (p : Fin 12) : s.nextOrdinal.countPin p = s.countPin p := rfl
@[simp] theorem State.nextOrdinal_dinPin (n : Fin 8) : s.nextOrdinal.dinPin n = s.dinPin n := rfl
@[simp] theorem State.nextOrdinal_out_rnq : s.nextOrdinal.out.rnq = s.out.rnq := rfl
@[simp] theorem State.nextOrdinal_out_reserved : s.nextOrdinal.out.reserved = s.out.reserved := rfl
@[simp] theorem State.nextOrdinal_out_lostMark : s.nextOrdinal.out.lostMark = s.out.lostMark := rfl
@[simp] theorem State.nextOrdinal_out_lostRun : s.nextOrdinal.out.lostRun = s.out.lostRun := rfl
@[simp] theorem State.nextOrdinal_out_lostData : s.nextOrdinal.out.lostData = s.out.lostData := rfl
@[simp] theorem State.nextOrdinal_out_lostSafety : s.nextOrdinal.out.lostSafety = s.out.lostSafety := rfl
@[simp] theorem State.nextOrdinal_out_sequence : s.nextOrdinal.out.sequence = s.out.sequence := rfl
@[simp] theorem State.nextOrdinal_out_ordinal : s.nextOrdinal.out.ordinal = s.out.ordinal + 1#16 := rfl
end

/-! ### The part that an update writes -/

section
variable (s : State)

theorem State.chan_setChan (k i : Fin 6) (c : Channel) : (s.setChan k c).chan i = if i = k then c else s.chan i := by
  simp only [State.chan, State.setChan, State.withChannels, Fin.getElem_fin, Vector.getElem_set]
  by_cases h : i = k
  · simp [h]
  · simp [h, show ¬(k.val = i.val) from fun e => h (Fin.ext e.symm)]

@[simp] theorem State.chan_setChan_same (k : Fin 6) (c : Channel) : (s.setChan k c).chan k = c := by
  simp [State.chan_setChan]

theorem State.chan_setChan_other {k i : Fin 6} (h : i ≠ k) (c : Channel) : (s.setChan k c).chan i = s.chan i := by
  simp [State.chan_setChan, h]

@[simp] theorem State.chan_modChan_same (k : Fin 6) (f : Channel → Channel) : (s.modChan k f).chan k = f (s.chan k) := by
  simp [State.modChan]

theorem State.chan_modChan_other {k i : Fin 6} (h : i ≠ k) (f : Channel → Channel) : (s.modChan k f).chan i = s.chan i := by
  simp [State.modChan, State.chan_setChan, h]

theorem State.chan_modChan (k i : Fin 6) (f : Channel → Channel) :
    (s.modChan k f).chan i = if i = k then f (s.chan k) else s.chan i := by simp [State.modChan, State.chan_setChan]

theorem State.line_setLine (n i : Fin 12) (l : Line) : (s.setLine n l).line i = if i = n then l else s.line i := by
  simp only [State.line, State.setLine, State.withMatrix, LineMatrix.setLine, Fin.getElem_fin, Vector.getElem_set]
  by_cases h : i = n
  · simp [h]
  · simp [h, show ¬(n.val = i.val) from fun e => h (Fin.ext e.symm)]

@[simp] theorem State.line_setLine_same (n : Fin 12) (l : Line) : (s.setLine n l).line n = l := by
  simp [State.line_setLine]

theorem State.line_setLine_other {n i : Fin 12} (h : i ≠ n) (l : Line) : (s.setLine n l).line i = s.line i := by
  simp [State.line_setLine, h]

theorem State.pair_setPair (j i : Fin 6) (p : Pair) : (s.setPair j p).pair i = if i = j then p else s.pair i := by
  simp only [State.pair, State.setPair, State.withMatrix, LineMatrix.setPair, Fin.getElem_fin, Vector.getElem_set]
  by_cases h : i = j
  · simp [h]
  · simp [h, show ¬(j.val = i.val) from fun e => h (Fin.ext e.symm)]

@[simp] theorem State.pair_setPair_same (j : Fin 6) (p : Pair) : (s.setPair j p).pair j = p := by
  simp [State.pair_setPair]

theorem State.countPin_setCountPin (p i : Fin 12) (x : FilteredInput) :
    (s.setCountPin p x).countPin i = if i = p then x else s.countPin i := by
  simp only [State.countPin, State.setCountPin, State.withInputs, Fin.getElem_fin, Vector.getElem_set]
  by_cases h : i = p
  · simp [h]
  · simp [h, show ¬(p.val = i.val) from fun e => h (Fin.ext e.symm)]

theorem State.dinPin_setDinPin (n i : Fin 8) (x : DiscreteInput) :
    (s.setDinPin n x).dinPin i = if i = n then x else s.dinPin i := by
  simp only [State.dinPin, State.setDinPin, State.withInputs, Fin.getElem_fin, Vector.getElem_set]
  by_cases h : i = n
  · simp [h]
  · simp [h, show ¬(n.val = i.val) from fun e => h (Fin.ext e.symm)]

end

/-! ### endInstant -/

section
variable (s : State) (f : FrontEnd)
@[simp] theorem FrontEnd.endInstant_count : f.endInstant.count = f.count := rfl
@[simp] theorem FrontEnd.endInstant_din : f.endInstant.din = f.din := rfl
@[simp] theorem FrontEnd.endInstant_restarted : f.endInstant.restarted = 0#12 := rfl
@[simp] theorem FrontEnd.endInstant_termValue (t : Term) : f.endInstant.termValue t = f.termValue t := rfl
@[simp] theorem FrontEnd.endInstant_gateLevel (g : Option DinRef) : f.endInstant.gateLevel g = f.gateLevel g := rfl
@[simp] theorem State.endInstant_pending : s.endInstant.pending = s.pending := rfl
@[simp] theorem State.endInstant_power : s.endInstant.power = s.power := rfl
@[simp] theorem State.endInstant_port : s.endInstant.port = s.port := rfl
@[simp] theorem State.endInstant_out : s.endInstant.out = s.out := rfl
@[simp] theorem State.endInstant_safety : s.endInstant.safety = s.safety := rfl
@[simp] theorem State.endInstant_channels : s.endInstant.channels = s.channels := rfl
@[simp] theorem State.endInstant_matrix : s.endInstant.matrix = s.matrix := rfl
@[simp] theorem State.endInstant_trip : s.endInstant.trip = s.trip := rfl
@[simp] theorem State.endInstant_ledger : s.endInstant.ledger = s.ledger := rfl
@[simp] theorem State.endInstant_sealLevel : s.endInstant.sealLevel = s.sealLevel := rfl
@[simp] theorem State.endInstant_inputs : s.endInstant.inputs = s.inputs.endInstant := rfl
@[simp] theorem State.endInstant_instant : s.endInstant.instant = none := rfl
@[simp] theorem State.endInstant_chan (k : Fin 6) : s.endInstant.chan k = s.chan k := rfl
@[simp] theorem State.endInstant_line (n : Fin 12) : s.endInstant.line n = s.line n := rfl
@[simp] theorem State.endInstant_pair (j : Fin 6) : s.endInstant.pair j = s.pair j := rfl
@[simp] theorem State.endInstant_countPin (p : Fin 12) : s.endInstant.countPin p = s.countPin p := rfl
@[simp] theorem State.endInstant_dinPin (n : Fin 8) : s.endInstant.dinPin n = s.dinPin n := rfl
end

/-! ### Two states are equal when their fields are -/

theorem State.eq_of_fields {s t : State} (h1 : s.pending = t.pending) (h2 : s.power = t.power) (h3 : s.port = t.port)
    (h4 : s.out = t.out) (h5 : s.inputs = t.inputs) (h6 : s.safety = t.safety) (h7 : s.channels = t.channels)
    (h8 : s.matrix = t.matrix) (h9 : s.trip = t.trip) (h10 : s.ledger = t.ledger) (h11 : s.sealLevel = t.sealLevel)
    (h12 : s.instant = t.instant) : s = t := by
  cases s; cases t; simp_all

theorem State.channels_eq {s : State} {v : Vector Channel 6} (h : ∀ k : Fin 6, s.chan k = v[k]) : s.channels = v :=
  Vector.ext fun i hi => h ⟨i, hi⟩

theorem State.lines_eq {s : State} {v : Vector Line 12} (h : ∀ n : Fin 12, s.line n = v[n]) : s.matrix.lines = v :=
  Vector.ext fun i hi => h ⟨i, hi⟩

theorem State.pairs_eq {s : State} {v : Vector Pair 6} (h : ∀ j : Fin 6, s.pair j = v[j]) : s.matrix.pairs = v :=
  Vector.ext fun i hi => h ⟨i, hi⟩

end Sys2Proof.Machine
end

