-- ==== Sys2Proof/Laws/Intake.lean ====
section
/-! SUPPORT. What a step of the Command Engine does, once for all command rows: where it takes place, what it
checks, and what it answers. -/

namespace Sys2Proof.Machine

section
variable {s : State} {m : Message} {rest : List Message}

/-! ### The message that is taken -/

theorem State.nextMessage_of_takes (h : s.takes m rest) : s.nextMessage = some (m, rest) := by
  simp [State.nextMessage, h.1, h.2]

/-- The Command Engine takes only the message at the front of the CIQ, with room for its reply. -/
theorem State.takes_of_nextMessage (h : s.nextMessage = some (m, rest)) : s.takes m rest := by
  unfold State.nextMessage at h
  cases hc : s.port.ciq with
  | nil => simp [hc] at h
  | cons a l =>
    simp only [hc] at h
    split at h
    · obtain ⟨rfl, rfl⟩ : a = m ∧ l = rest := by simpa using h
      exact ⟨hc, by assumption⟩
    · cases h

/-- A command row acts on the message it takes when that is of its kind. -/
theorem State.command_of_takes (h : s.takes m rest) {f : CommandForm} {body : Message → State → State × Reply}
    (hk : headKind m.head = f.kind) : s.command f body = s.execute f body m rest := by
  simp [State.command, State.nextMessage_of_takes h, hk]

/-- Everything a command row can do: nothing, or one step on the message it takes. -/
theorem State.command_cases (s : State) (f : CommandForm) (body : Message → State → State × Reply) :
    s.command f body = s ∨ ∃ m rest, s.takes m rest ∧ headKind m.head = f.kind ∧ s.command f body = s.execute f body m rest := by
  unfold State.command
  cases h : s.nextMessage with
  | none => exact .inl rfl
  | some p =>
    obtain ⟨m, rest⟩ := p
    by_cases hk : headKind m.head = f.kind
    · exact .inr ⟨m, rest, State.takes_of_nextMessage h, hk, by simp [hk]⟩
    · exact .inl (by simp [hk])

/-! ### The checks of the header -/

theorem CommandForm.refusal_eq_none {f : CommandForm} {level : BitVec 2} (hl : ∀ n ∈ f.length, n = m.body.length)
    (hc : f.channel.accepts m = true) (hm : headModifier m.head &&& ~~~f.modifierMask = 0#9)
    (hs : ∀ n ∈ f.sealedFrom, level.toNat < n) : f.refusal level m = none := by
  have h1 : f.length.any (· != m.body.length) = false := by
    cases h : f.length with
    | none => rfl
    | some n => simp [hl n (by simp [h])]
  have h2 : f.sealedFrom.any (· ≤ level.toNat) = false := by
    cases h : f.sealedFrom with
    | none => rfl
    | some n => simpa using hs n (by simp [h])
  simp [CommandForm.refusal, h1, hc, hm, h2]

theorem ChannelForm.accepts_device (h : headChannel m.head = 15#4) : ChannelForm.device.accepts m = true := by
  simp [ChannelForm.accepts, deviceChannel, h]

theorem channelField_toNat (k : Fin 6) : (channelField k).toNat = k.val := by
  simp [channelField]; omega

theorem Message.channel?_of_field {k : Fin 6} (h : headChannel m.head = channelField k) : m.channel? = some k := by
  have := k.isLt
  simp [Message.channel?, h, channelField_toNat]

theorem Message.channelNumber_of_field {k : Fin 6} (h : headChannel m.head = channelField k) : m.channelNumber = k := by
  simp [Message.channelNumber, Message.channel?_of_field h]

theorem ChannelForm.accepts_channel {k : Fin 6} (h : headChannel m.head = channelField k) :
    ChannelForm.channel.accepts m = true := by
  simp [ChannelForm.accepts, Message.channel?_of_field h]

/-! ### The answer -/

/-- A command whose header passes does what its body says on the state without its message, and answers. -/
theorem State.execute_of_passed {f : CommandForm} {body : Message → State → State × Reply}
    (h : f.refusal s.sealLevel m = none) :
    s.execute f body m rest = (body m (s.takeMessage rest)).1.admitReply m (body m (s.takeMessage rest)).2 := by
  simp [State.execute, State.takeMessage, h]

/-- A command that changes nothing but answers leaves exactly the answered state. -/
theorem State.admitReply_takeMessage (code : ResultCode) (body : List Word) :
    (s.takeMessage rest).admitReply m ⟨code, body⟩ = s.answered m rest code body := rfl

theorem State.execute_of_refused {f : CommandForm} {body : Message → State → State × Reply} {code : ResultCode}
    (h : f.refusal s.sealLevel m = some code) : s.execute f body m rest = s.answered m rest code f.refusalBody := by
  simp [State.execute, State.takeMessage, h, ← State.admitReply_takeMessage]

/-- A device-wide command without modifier on the message it requires. -/
theorem State.command_device {f : CommandForm} {body : Message → State → State × Reply} {kind : Byte} (h : s.takes m rest)
    (hm : m.isCommand kind 15#4 0#9) (hf : f.kind = kind) (hd : f.channel = .device)
    (hl : ∀ n ∈ f.length, n = m.body.length) (hs : ∀ n ∈ f.sealedFrom, s.sealLevel.toNat < n) :
    s.command f body = (body m (s.takeMessage rest)).1.admitReply m (body m (s.takeMessage rest)).2 := by
  rw [State.command_of_takes h (hm.1.trans hf.symm), State.execute_of_passed]
  exact CommandForm.refusal_eq_none hl (hd ▸ ChannelForm.accepts_device hm.2.1) (by simp [hm.2.2]) hs

/-- A command addressed to channel k, with a modifier that it defines, on the message it requires. -/
theorem State.command_channel {f : CommandForm} {body : Message → State → State × Reply} {kind : Byte} {k : Fin 6}
    {modifier : BitVec 9} (h : s.takes m rest) (hm : m.isCommand kind (channelField k) modifier) (hf : f.kind = kind)
    (hd : f.channel = .channel) (hx : modifier &&& ~~~f.modifierMask = 0#9) (hl : ∀ n ∈ f.length, n = m.body.length)
    (hs : ∀ n ∈ f.sealedFrom, s.sealLevel.toNat < n) :
    s.command f body = (body m (s.takeMessage rest)).1.admitReply m (body m (s.takeMessage rest)).2 := by
  rw [State.command_of_takes h (hm.1.trans hf.symm), State.execute_of_passed]
  exact CommandForm.refusal_eq_none hl (hd ▸ ChannelForm.accepts_channel hm.2.1) (by rw [hm.2.2]; exact hx) hs

/-! ### Taking a message leaves everything but the queues -/

@[simp] theorem State.takeMessage_pending : (s.takeMessage rest).pending = s.pending := rfl
@[simp] theorem State.takeMessage_power : (s.takeMessage rest).power = s.power := rfl
@[simp] theorem State.takeMessage_inputs : (s.takeMessage rest).inputs = s.inputs.endInstant := rfl
@[simp] theorem State.takeMessage_instant : (s.takeMessage rest).instant = none := rfl
@[simp] theorem State.takeMessage_safety : (s.takeMessage rest).safety = s.safety := rfl
@[simp] theorem State.takeMessage_channels : (s.takeMessage rest).channels = s.channels := rfl
@[simp] theorem State.takeMessage_matrix : (s.takeMessage rest).matrix = s.matrix := rfl
@[simp] theorem State.takeMessage_trip : (s.takeMessage rest).trip = s.trip := rfl
@[simp] theorem State.takeMessage_ledger : (s.takeMessage rest).ledger = s.ledger := rfl
@[simp] theorem State.takeMessage_sealLevel : (s.takeMessage rest).sealLevel = s.sealLevel := rfl
@[simp] theorem State.takeMessage_chan (k : Fin 6) : (s.takeMessage rest).chan k = s.chan k := rfl
@[simp] theorem State.takeMessage_line (n : Fin 12) : (s.takeMessage rest).line n = s.line n := rfl
@[simp] theorem State.takeMessage_pair (j : Fin 6) : (s.takeMessage rest).pair j = s.pair j := rfl

variable {r : Reply}

@[simp] theorem State.admitReply_pending : (s.admitReply m r).pending = s.pending := rfl
@[simp] theorem State.admitReply_power : (s.admitReply m r).power = s.power := rfl
@[simp] theorem State.admitReply_port : (s.admitReply m r).port = s.port := rfl
@[simp] theorem State.admitReply_inputs : (s.admitReply m r).inputs = s.inputs := rfl
@[simp] theorem State.admitReply_safety : (s.admitReply m r).safety = s.safety := rfl
@[simp] theorem State.admitReply_channels : (s.admitReply m r).channels = s.channels := rfl
@[simp] theorem State.admitReply_matrix : (s.admitReply m r).matrix = s.matrix := rfl
@[simp] theorem State.admitReply_trip : (s.admitReply m r).trip = s.trip := rfl
@[simp] theorem State.admitReply_ledger : (s.admitReply m r).ledger = s.ledger := rfl
@[simp] theorem State.admitReply_sealLevel : (s.admitReply m r).sealLevel = s.sealLevel := rfl
@[simp] theorem State.admitReply_instant : (s.admitReply m r).instant = s.instant := rfl
@[simp] theorem State.admitReply_chan (k : Fin 6) : (s.admitReply m r).chan k = s.chan k := rfl
@[simp] theorem State.admitReply_line (n : Fin 12) : (s.admitReply m r).line n = s.line n := rfl
@[simp] theorem State.admitReply_pair (j : Fin 6) : (s.admitReply m r).pair j = s.pair j := rfl

end

end Sys2Proof.Machine
end

