-- ==== Sys2Proof/Laws/Operands.lean ====
section
/-! SUPPORT. The fields of a head word read back (R19), and the shape of notices and replies. -/

namespace Sys2Proof.Machine

section
variable (kind tag : Byte) (channel : BitVec 4) (length : Nat) (modifier : BitVec 9)

@[simp] theorem headKind_makeHead : headKind (makeHead kind tag channel length modifier) = kind := by
  apply BitVec.eq_of_getElem_eq
  intro i hi
  simp [headKind, makeHead, field, place, BitVec.getElem_extractLsb', BitVec.getLsbD_shiftLeft, BitVec.getLsbD_setWidth]
  interval_cases i <;> simp

@[simp] theorem headTag_makeHead : headTag (makeHead kind tag channel length modifier) = tag := by
  apply BitVec.eq_of_getElem_eq
  intro i hi
  simp [headTag, makeHead, field, place, BitVec.getElem_extractLsb', BitVec.getLsbD_shiftLeft, BitVec.getLsbD_setWidth]
  interval_cases i <;> simp

@[simp] theorem headChannel_makeHead : headChannel (makeHead kind tag channel length modifier) = channel := by
  apply BitVec.eq_of_getElem_eq
  intro i hi
  simp [headChannel, makeHead, field, place, BitVec.getElem_extractLsb', BitVec.getLsbD_shiftLeft, BitVec.getLsbD_setWidth]
  interval_cases i <;> simp

@[simp] theorem headLength_makeHead : headLength (makeHead kind tag channel length modifier) = BitVec.ofNat 3 length := by
  apply BitVec.eq_of_getElem_eq
  intro i hi
  simp [headLength, makeHead, field, place, BitVec.getElem_extractLsb', BitVec.getLsbD_shiftLeft, BitVec.getLsbD_setWidth]
  interval_cases i <;> simp

@[simp] theorem headModifier_makeHead : headModifier (makeHead kind tag channel length modifier) = modifier := by
  apply BitVec.eq_of_getElem_eq
  intro i hi
  simp [headModifier, makeHead, field, place, BitVec.getElem_extractLsb', BitVec.getLsbD_shiftLeft, BitVec.getLsbD_setWidth]
  interval_cases i <;> simp

end

theorem replyMessage_not_notice (m : Message) (r : Reply) : isNotice (replyMessage m r) = false := by
  simp [isNotice, replyMessage]

theorem Notice.message_isNotice (n : Notice) (tag : Byte) : isNotice (n.message tag) = true := by
  cases h : n.kind <;> simp [isNotice, Notice.message, NoticeKind.code, h]

theorem Notice.message_whole {n : Notice} (h : n.body.length ≤ 7) (tag : Byte) : (n.message tag).whole := by
  simp only [Message.whole, Notice.message, headLength_makeHead, BitVec.toNat_ofNat]
  omega

theorem replyMessage_whole {m : Message} {r : Reply} (h : r.body.length ≤ 7) : (replyMessage m r).whole := by
  simp only [Message.whole, replyMessage, headLength_makeHead, BitVec.toNat_ofNat]
  omega

theorem Message.whole_length {m : Message} (h : m.whole) : m.body.length ≤ 7 := by
  have := (headLength m.head).isLt
  simp only [Message.whole] at h
  omega

end Sys2Proof.Machine
end

