-- ==== Sys2Proof/Laws/Ops.lean ====
section
/-! SUPPORT. One lemma for each shared operation of Machine/Ops.lean that says everything it can do. -/

namespace Sys2Proof.Machine

/-! ### Notices (R27, R28) -/

section
variable (o : Outbox) (n : Notice)

@[simp] theorem Outbox.enqueue_rnq : (o.enqueue n).rnq = o.rnq ++ [n.message o.sequence] := rfl
@[simp] theorem Outbox.enqueue_reserved : (o.enqueue n).reserved = o.reserved := rfl
@[simp] theorem Outbox.enqueue_ordinal : (o.enqueue n).ordinal = o.ordinal := rfl
@[simp] theorem Outbox.enqueue_sequence : (o.enqueue n).sequence = o.sequence + 1#8 := rfl
@[simp] theorem Outbox.clearLost_rnq : o.clearLost.rnq = o.rnq := rfl
@[simp] theorem Outbox.clearLost_reserved : o.clearLost.reserved = o.reserved := rfl
@[simp] theorem Outbox.clearLost_ordinal : o.clearLost.ordinal = o.ordinal := rfl
@[simp] theorem Outbox.clearLost_sequence : o.clearLost.sequence = o.sequence := rfl

@[simp] theorem Outbox.lose_rnq (k : NoticeKind) : (o.lose k).rnq = o.rnq := by cases k <;> rfl
@[simp] theorem Outbox.lose_reserved (k : NoticeKind) : (o.lose k).reserved = o.reserved := by cases k <;> rfl
@[simp] theorem Outbox.lose_ordinal (k : NoticeKind) : (o.lose k).ordinal = o.ordinal := by cases k <;> rfl
@[simp] theorem Outbox.lose_sequence (k : NoticeKind) : (o.lose k).sequence = o.sequence := by cases k <;> rfl

@[simp] theorem Outbox.noticeCount_enqueue : (o.enqueue n).noticeCount = o.noticeCount + 1 := by
  simp [Outbox.noticeCount, Notice.message_isNotice]

@[simp] theorem Outbox.noticeCount_clearLost : o.clearLost.noticeCount = o.noticeCount := rfl

@[simp] theorem Outbox.noticeCount_lose (k : NoticeKind) : (o.lose k).noticeCount = o.noticeCount := by
  simp [Outbox.noticeCount]

theorem Outbox.admits_iff : o.admits = true ↔
    o.noticeCount < 24 ∧ o.rnq.length + (if o.reserved then 1 else 0) < 32 := by
  rw [Outbox.admits, Bool.and_eq_true, decide_eq_true_iff, decide_eq_true_iff]; exact Iff.rfl

end

/-- Everything an offered notice can do: the notices at the tail of the RNQ, the counters, the sticky flag. -/
theorem State.offer_cases (s : State) (n : Notice) :
    s.offer n = { s with port := (s.offer n).port, out := (s.offer n).out } ∧ s.onlyNotifies (s.offer n)
      ∧ (s.offer n).out.ordinal = s.out.ordinal := by
  have lossy : ∀ o : Outbox, isNotice ((o.lossNotice n).message o.sequence) = true := fun o => Notice.message_isNotice _ _
  have noted : ∀ t, isNotice (n.message t) = true := Notice.message_isNotice n
  unfold State.offer Outbox.reportLosses
  simp only
  by_cases h1 : s.out.admits = true
  · by_cases h2 : s.out.lostAny = true
    · by_cases h3 : (s.out.enqueue (s.out.lossNotice n)).clearLost.admits = true
      · simp only [h1, h2, h3, if_true]
        exact ⟨rfl, ⟨rfl, by simp, [_, _], by simp; exact ⟨rfl, rfl⟩, by simp [lossy, noted]⟩, by simp⟩
      · simp only [h1, h2, h3, if_true, Bool.false_eq_true, if_false]
        exact ⟨rfl, ⟨rfl, by simp, [_], by simp; rfl, by simp [lossy]⟩, by simp⟩
    · simp only [h1, h2, if_true, Bool.false_eq_true, if_false]
      exact ⟨rfl, ⟨rfl, by simp, [_], by simp; rfl, by simp [noted]⟩, by simp⟩
  · simp only [h1, Bool.false_eq_true, if_false]
    exact ⟨rfl, ⟨rfl, by simp, [], by simp, by simp⟩, by simp⟩

section
variable (s : State) (n : Notice)

@[simp] theorem State.offer_pending : (s.offer n).pending = s.pending := by rw [(s.offer_cases n).1]
@[simp] theorem State.offer_power : (s.offer n).power = s.power := by rw [(s.offer_cases n).1]
@[simp] theorem State.offer_inputs : (s.offer n).inputs = s.inputs := by rw [(s.offer_cases n).1]
@[simp] theorem State.offer_safety : (s.offer n).safety = s.safety := by rw [(s.offer_cases n).1]
@[simp] theorem State.offer_channels : (s.offer n).channels = s.channels := by rw [(s.offer_cases n).1]
@[simp] theorem State.offer_matrix : (s.offer n).matrix = s.matrix := by rw [(s.offer_cases n).1]
@[simp] theorem State.offer_trip : (s.offer n).trip = s.trip := by rw [(s.offer_cases n).1]
@[simp] theorem State.offer_ledger : (s.offer n).ledger = s.ledger := by rw [(s.offer_cases n).1]
@[simp] theorem State.offer_sealLevel : (s.offer n).sealLevel = s.sealLevel := by rw [(s.offer_cases n).1]
@[simp] theorem State.offer_instant : (s.offer n).instant = s.instant := by rw [(s.offer_cases n).1]
@[simp] theorem State.offer_ordinal : (s.offer n).out.ordinal = s.out.ordinal := (s.offer_cases n).2.2
@[simp] theorem State.offer_chan (k : Fin 6) : (s.offer n).chan k = s.chan k := by simp [State.chan]
@[simp] theorem State.offer_line (i : Fin 12) : (s.offer n).line i = s.line i := by simp [State.line]
@[simp] theorem State.offer_pair (j : Fin 6) : (s.offer n).pair j = s.pair j := by simp [State.pair]
@[simp] theorem State.offer_countPin (p : Fin 12) : (s.offer n).countPin p = s.countPin p := by simp [State.countPin]
@[simp] theorem State.offer_dinPin (i : Fin 8) : (s.offer n).dinPin i = s.dinPin i := by simp [State.dinPin]

end

/-- Notices only, followed by notices only, is notices only. -/
theorem State.onlyNotifies_trans {s t u : State} (h : s.onlyNotifies t) (h' : t.onlyNotifies u) : s.onlyNotifies u := by
  obtain ⟨hp, hr, l, hl, hn⟩ := h
  obtain ⟨hp', hr', l', hl', hn'⟩ := h'
  refine ⟨by rw [hp', hp], hr'.trans hr, l ++ l', by rw [hl', hl, List.append_assoc], ?_⟩
  intro m hm
  rcases List.mem_append.mp hm with h | h
  · exact hn m h
  · exact hn' m h

theorem State.onlyNotifies_of_eq {s t : State} (hp : t.port = s.port) (hr : t.out.reserved = s.out.reserved)
    (hq : t.out.rnq = s.out.rnq) : s.onlyNotifies t :=
  ⟨by rw [hp], hr, [], by simp [hq], by simp⟩

theorem State.onlyNotifies_refl (s : State) : s.onlyNotifies s := State.onlyNotifies_of_eq rfl rfl rfl

/-! ### The ledger (R179, R180) -/

theorem setConditionIn_eq_map (source : LedgerSource) (kind : LedgerKind) (active : Bool) (l : List LedgerRecord) :
    setConditionIn source kind active l =
      l.map fun r => if r.source = source ∧ r.kind = kind then { r with active := active } else r := by
  induction l with
  | nil => rfl
  | cons r rest ih => simp [setConditionIn, ih, LedgerRecord.isFor]

theorem repeatIn_eq_map (source : LedgerSource) (kind : LedgerKind) (present : Bool) (l : List LedgerRecord) :
    repeatIn source kind present l = l.map fun r => if r.source = source ∧ r.kind = kind then
      { r with repeats := if r.repeats = 15#4 then 15#4 else r.repeats + 1#4, active := present || r.active } else r := by
  induction l with
  | nil => rfl
  | cons r rest ih => simp [repeatIn, ih, LedgerRecord.isFor]

theorem State.setCondition_false (s : State) (source : LedgerSource) (kind : LedgerKind) :
    s.setCondition source kind false = { s with ledger := s.ledger.standingAt source kind } := by
  simp [State.setCondition, setConditionIn_eq_map, Ledger.standingAt, State.withLedger]

theorem State.setCondition_eq (s : State) (source : LedgerSource) (kind : LedgerKind) (b : Bool) :
    s.setCondition source kind b = { s with ledger := { s.ledger with records := s.ledger.records.map fun r =>
      if r.source = source ∧ r.kind = kind then { r with active := b } else r } } := by
  simp [State.setCondition, setConditionIn_eq_map, State.withLedger]

/-- A commit signal is all that the commitment of a message adds to the queue (R10). -/
theorem State.commitMessage_eq (s : State) (m : Message) : s.commitMessage m = s.committed m := by
  unfold State.commitMessage State.committed State.signOfLife State.modPort
  by_cases h : s.trip.hostLost <;>
    simp [h, State.setCondition_false, State.withPort, State.withTrip, TripConfig.fullWatch] <;> rfl

/-! ### Lines, pairs and gaps (R140, R144) -/

theorem State.ownedPair_congr {s t : State} (hl : ∀ n : Fin 12, (t.line n).owner = (s.line n).owner)
    (hp : ∀ j : Fin 6, (t.pair j).paired = (s.pair j).paired) (j : Fin 6) : t.ownedPair j = s.ownedPair j := by
  simp [State.ownedPair, hl, hp]

/-- Everything a new logical state of a line can do: the line, and the gap of its pair when the target changes. -/
theorem State.setLogical_cases (s : State) (n : Fin 12) (active : Bool) (pulse : Option Nat) :
    s.setLogical n active pulse = { s with matrix := (s.setLogical n active pulse).matrix }
      ∧ (s.setLogical n active pulse).matrix.shut = s.matrix.shut
      ∧ (∀ i : Fin 12, (s.setLogical n active pulse).line i =
          if i = n then { s.line n with active := active, pulseLeft := pulse } else s.line i)
      ∧ ∀ j : Fin 6, (s.setLogical n active pulse).pair j =
          if j = pairOfLine n ∧ (s.line n).active ≠ active ∧ s.pairing n = .pairEven ∧ s.ownedPair (pairOfLine n) = true
            ∧ s.trip.permit = .permitted then (s.pair j).inGap else s.pair j := by
  unfold State.setLogical
  split
  next h =>
    refine ⟨rfl, rfl, fun i => by simp [State.enterGap, State.line_setLine], fun j => ?_⟩
    by_cases hj : j = pairOfLine n
    · subst hj
      simp [h, State.enterGap, Pair.inGap]
    · simp [hj, State.enterGap, State.pair_setPair]
  next h =>
    refine ⟨rfl, rfl, fun i => by simp [State.line_setLine], fun j => ?_⟩
    rw [if_neg fun hx => h hx.2]; rfl

/-- The gap of one owned pair. -/
theorem State.gapIfOwned_cases (s : State) (i : Fin 6) :
    s.gapIfOwned i = { s with matrix := (s.gapIfOwned i).matrix } ∧ (s.gapIfOwned i).matrix.shut = s.matrix.shut
      ∧ (s.gapIfOwned i).matrix.lines = s.matrix.lines
      ∧ ∀ j : Fin 6, (s.gapIfOwned i).pair j = if j = i ∧ s.ownedPair i = true then (s.pair j).inGap else s.pair j := by
  unfold State.gapIfOwned
  split
  next h =>
    refine ⟨rfl, rfl, rfl, fun j => ?_⟩
    by_cases hj : j = i
    · subst hj; simp [h, State.enterGap, Pair.inGap]
    · simp [hj, State.enterGap, State.pair_setPair]
  next h => exact ⟨rfl, rfl, rfl, fun j => by simp [h]⟩

theorem State.gaps_fold (l : List (Fin 6)) : ∀ (s : State), l.Nodup →
    (l.foldl State.gapIfOwned s) = { s with matrix := (l.foldl State.gapIfOwned s).matrix }
      ∧ (l.foldl State.gapIfOwned s).matrix.shut = s.matrix.shut ∧ (l.foldl State.gapIfOwned s).matrix.lines = s.matrix.lines
      ∧ ∀ j : Fin 6, (l.foldl State.gapIfOwned s).pair j =
          if j ∈ l ∧ s.ownedPair j = true then (s.pair j).inGap else s.pair j := by
  induction l with
  | nil => intro s _; exact ⟨rfl, rfl, rfl, fun j => by simp⟩
  | cons i l ih =>
    intro s hd
    obtain ⟨hi, hd⟩ := List.nodup_cons.mp hd
    obtain ⟨g1, g2, g3, g4⟩ := s.gapIfOwned_cases i
    obtain ⟨h1, h2, h3, h4⟩ := ih (s.gapIfOwned i) hd
    have hline : ∀ n : Fin 12, (s.gapIfOwned i).line n = s.line n := fun n => by simp [State.line, g3]
    have hown : ∀ j, (s.gapIfOwned i).ownedPair j = s.ownedPair j :=
      State.ownedPair_congr (fun n => by rw [hline]) fun j => by rw [g4]; split <;> rfl
    refine ⟨by rw [List.foldl_cons, h1, g1], h2.trans g2, h3.trans g3, fun j => ?_⟩
    rw [List.foldl_cons, h4, hown, g4]
    by_cases hj : j = i
    · subst hj; simp [hi]
    · simp [hj]

/-! ### The permit (R144, R163, R164, R168) -/

/-- Everything a new state of the permit can do: the gaps of the owned pairs when it comes to or leaves PERMITTED. -/
theorem State.setPermit_cases (s : State) (p : Permit) :
    s.setPermit p = { s with matrix := (s.setPermit p).matrix, trip := { s.trip with permit := p } }
      ∧ s.onlyGaps (s.setPermit p) ((s.trip.permit == .permitted) != (p == .permitted)) := by
  obtain ⟨h1, h2, h3, h4⟩ := State.gaps_fold pairNumbers (s.withTrip { s.trip with permit := p }) (by decide)
  by_cases h : (s.trip.permit == .permitted) = (p == .permitted)
  · have e : s.setPermit p = s.withTrip { s.trip with permit := p } := if_neg (not_not_intro h)
    rw [e, h, bne_self_eq_false]
    exact ⟨rfl, fun _ => rfl, rfl, fun _ => rfl⟩
  · have e : s.setPermit p = pairNumbers.foldl State.gapIfOwned (s.withTrip { s.trip with permit := p }) := if_pos h
    have hb : ((s.trip.permit == .permitted) != (p == .permitted)) = true := bne_iff_ne.mpr h
    rw [e, hb]
    refine ⟨h1, fun n => by unfold State.line; rw [h3]; rfl, h2, fun j => ?_⟩
    have hm : j ∈ pairNumbers := by revert j; decide
    rw [h4]
    simp only [hm, true_and, Bool.true_and]
    rfl

section
variable (s : State) (p : Permit)

@[simp] theorem State.setPermit_pending : (s.setPermit p).pending = s.pending := by rw [(s.setPermit_cases p).1]
@[simp] theorem State.setPermit_power : (s.setPermit p).power = s.power := by rw [(s.setPermit_cases p).1]
@[simp] theorem State.setPermit_port : (s.setPermit p).port = s.port := by rw [(s.setPermit_cases p).1]
@[simp] theorem State.setPermit_out : (s.setPermit p).out = s.out := by rw [(s.setPermit_cases p).1]
@[simp] theorem State.setPermit_inputs : (s.setPermit p).inputs = s.inputs := by rw [(s.setPermit_cases p).1]
@[simp] theorem State.setPermit_safety : (s.setPermit p).safety = s.safety := by rw [(s.setPermit_cases p).1]
@[simp] theorem State.setPermit_channels : (s.setPermit p).channels = s.channels := by rw [(s.setPermit_cases p).1]
@[simp] theorem State.setPermit_trip : (s.setPermit p).trip = { s.trip with permit := p } := by rw [(s.setPermit_cases p).1]
@[simp] theorem State.setPermit_ledger : (s.setPermit p).ledger = s.ledger := by rw [(s.setPermit_cases p).1]
@[simp] theorem State.setPermit_sealLevel : (s.setPermit p).sealLevel = s.sealLevel := by rw [(s.setPermit_cases p).1]
@[simp] theorem State.setPermit_instant : (s.setPermit p).instant = s.instant := by rw [(s.setPermit_cases p).1]

end

/-- A withdrawal of a PERMITTED permit (R163). -/
theorem State.withdraw_cases (s : State) (source : TripSource) (hp : s.trip.permit = .permitted) :
    (s.withdraw source) = { s with
        port := (s.withdraw source).port, out := (s.withdraw source).out, matrix := (s.withdraw source).matrix
        trip := { s.trip with permit := .tripped, last := some ⟨source, s.out.ordinal⟩ } }
      ∧ s.onlyNotifies (s.withdraw source) ∧ s.onlyGaps (s.withdraw source) true
      ∧ (s.withdraw source).out.ordinal = s.out.ordinal + 1#16 := by
  have h2 := (s.setPermit_cases .tripped).2
  rw [show ((s.trip.permit == .permitted) != (Permit.tripped == .permitted)) = true by rw [hp]; decide] at h2
  unfold State.withdraw
  simp only
  refine ⟨?_, ?_, ?_, ?_⟩
  · apply State.eq_of_fields <;> simp
  · exact State.onlyNotifies_trans (State.onlyNotifies_of_eq (by simp) (by simp) (by simp)) (State.offer_cases _ _).2.1
  · simpa [State.onlyGaps] using h2
  · simp

/-- A grant of a permit that is not PERMITTED (R168, R169). -/
theorem State.grant_cases (s : State) (auto : Option (Fin 6)) (hp : s.trip.permit ≠ .permitted) :
    (s.grant auto) = { s with
        port := (s.grant auto).port, out := (s.grant auto).out, matrix := (s.grant auto).matrix
        trip := { s.trip with permit := .permitted } }
      ∧ s.onlyNotifies (s.grant auto) ∧ s.onlyGaps (s.grant auto) true
      ∧ (s.grant auto).out.ordinal = s.out.ordinal + 1#16 := by
  have h2 := (s.setPermit_cases .permitted).2
  rw [show ((s.trip.permit == .permitted) != (Permit.permitted == .permitted)) = true by
    cases h : s.trip.permit <;> simp_all] at h2
  unfold State.grant
  simp only
  refine ⟨?_, ?_, ?_, ?_⟩
  · apply State.eq_of_fields <;> simp
  · exact State.onlyNotifies_trans (State.onlyNotifies_of_eq (by simp) (by simp) (by simp)) (State.offer_cases _ _).2.1
  · simpa [State.onlyGaps] using h2
  · simp

/-! ### A fault occurrence and its withdrawal (R164, R180) -/

/-- A notice after an occurrence changes nothing of it. -/
theorem State.occurrenceTaken_offer {s u : State} {source : LedgerSource} {kind : LedgerKind} {present trips : Bool}
    {trip : TripSource} (h : s.occurrenceTaken u source kind present trips trip) (n : Notice) :
    s.occurrenceTaken (u.offer n) source kind present trips trip := by
  obtain ⟨h1, h2, h3, h4, h5, h6, h7⟩ := h
  refine ⟨?_, State.onlyNotifies_trans h2 (u.offer_cases n).2.1, ?_, ?_, ?_, ?_, ?_⟩
  · apply State.eq_of_fields
    · exact (u.offer_pending n).trans (by rw [h1])
    · exact (u.offer_power n).trans (by rw [h1])
    · rfl
    · rfl
    · exact (u.offer_inputs n).trans (by rw [h1])
    · exact (u.offer_safety n).trans (by rw [h1])
    · exact (u.offer_channels n).trans (by rw [h1])
    · rfl
    · rfl
    · rfl
    · exact (u.offer_sealLevel n).trans (by rw [h1])
    · exact (u.offer_instant n).trans (by rw [h1])
  · exact ⟨fun i => (u.offer_line n i).trans (h3.1 i), by rw [State.offer_matrix]; exact h3.2.1,
      fun j => (u.offer_pair n j).trans (h3.2.2 j)⟩
  · rw [State.offer_ordinal]; exact h4
  · rw [State.offer_trip]; exact h5
  · rw [State.offer_ledger]; exact h6
  · rw [State.offer_ledger]; exact h7

theorem State.faultOccurrence_cases (s : State) (source : LedgerSource) (kind : LedgerKind) (present : Bool)
    (trip : TripSource) : s.occurrenceTaken (s.faultOccurrence source kind present) source kind present false trip := by
  have hany : (s.ledger.records.any (·.isFor source kind) = true) ↔
      ∃ r ∈ s.ledger.records, r.source = source ∧ r.kind = kind := by simp [LedgerRecord.isFor]
  have hgap : ∀ l, s.onlyGaps (s.nextOrdinal.withLedger l) false := fun l => ⟨fun _ => rfl, rfl, fun _ => rfl⟩
  have hnote : ∀ l, s.onlyNotifies (s.nextOrdinal.withLedger l) := fun l => State.onlyNotifies_of_eq rfl rfl rfl
  unfold State.faultOccurrence
  simp only
  split
  next h =>
    refine ⟨rfl, hnote _, hgap _, rfl, rfl, fun _ => ?_, fun hn => ?_⟩
    · rw [State.withLedger_ledger, repeatIn_eq_map]
    · obtain ⟨r, hr, hx⟩ := hany.mp h; exact absurd hx (hn r hr)
  next h =>
    have hno : ¬∃ r ∈ s.ledger.records, r.source = source ∧ r.kind = kind := fun hx => h (hany.mpr hx)
    split
    next hl =>
      refine State.occurrenceTaken_offer ⟨rfl, hnote _, hgap _, rfl, rfl, fun hx => absurd hx hno, fun _ => ?_⟩ _
      rw [State.withLedger_ledger, if_pos (show s.ledger.records.length < 16 from hl)]
    next hl =>
      refine State.occurrenceTaken_offer ⟨rfl, hnote _, hgap _, rfl, rfl, fun hx => absurd hx hno, fun _ => ?_⟩ _
      rw [State.withLedger_ledger, if_neg (show ¬s.ledger.records.length < 16 from hl)]

/-- R164: the occurrence, then the withdrawal when its source is enabled and the permit PERMITTED. -/
theorem State.causeAsserts_cases (s : State) (source : LedgerSource) (kind : LedgerKind) (present enabled : Bool)
    (trip : TripSource) : s.occurrenceTaken ((s.faultOccurrence source kind present).withdrawIf enabled trip) source kind
      present (enabled && (s.trip.permit == .permitted)) trip := by
  have h := s.faultOccurrence_cases source kind present trip
  generalize s.faultOccurrence source kind present = u at h
  obtain ⟨h1, h2, h3, h4, h5, h6, h7⟩ := h
  replace h5 : u.trip = s.trip := h5
  unfold State.withdrawIf
  by_cases hx : enabled = true ∧ u.trip.permit = .permitted
  · rw [if_pos hx]
    have hb : (enabled && (s.trip.permit == .permitted)) = true := by rw [← h5]; simp [hx.1, hx.2]
    rw [hb]
    have w := u.withdraw_cases trip hx.2
    generalize u.withdraw trip = v at w
    obtain ⟨w1, w2, w3, w4⟩ := w
    have hled : v.ledger = u.ledger := by rw [w1]
    have htrip : v.trip = { u.trip with permit := .tripped, last := some ⟨trip, u.out.ordinal⟩ } := by rw [w1]
    have hp : ∀ i, u.pair i = s.pair i := fun i => (h3.2.2 i).trans (by simp)
    have hown : ∀ j, u.ownedPair j = s.ownedPair j :=
      State.ownedPair_congr (fun n => by rw [h3.1]) fun i => by rw [hp]
    refine ⟨?_, State.onlyNotifies_trans h2 w2, ?_, ?_, ?_, ?_, ?_⟩
    · apply State.eq_of_fields
      · show v.pending = s.pending
        rw [w1, h1]
      · show v.power = s.power
        rw [w1, h1]
      · rfl
      · rfl
      · show v.inputs = s.inputs
        rw [w1, h1]
      · show v.safety = s.safety
        rw [w1, h1]
      · show v.channels = s.channels
        rw [w1, h1]
      · rfl
      · rfl
      · rfl
      · show v.sealLevel = s.sealLevel
        rw [w1, h1]
      · show v.instant = s.instant
        rw [w1, h1]
    · refine ⟨fun n => (w3.1 n).trans (h3.1 n), w3.2.1.trans h3.2.1, fun j => ?_⟩
      rw [w3.2.2, hp, hown]
    · rw [w4, h4]; simp [BitVec.add_assoc]
    · rw [htrip, h4, h5]; simp
    · rw [hled]; exact h6
    · rw [hled]; exact h7
  · rw [if_neg hx]
    have hb : (enabled && (s.trip.permit == .permitted)) = false := by
      rw [← h5]; clear h1 h2 h3 h4 h6 h7; cases enabled <;> simp_all
    rw [hb]
    exact ⟨h1, h2, h3, h4, h5, h6, h7⟩

end Sys2Proof.Machine
end

