-- ==== Sys2Proof/Laws/Lines.lean ====
section
/-! SUPPORT. Line actions over many lines at once: releases, and DRIVE_LINES (R140, R142, R144, R156). -/

namespace Sys2Proof.Machine

theorem mem_lineNumbers (n : Fin 12) : n ∈ lineNumbers := by revert n; decide
theorem mem_channelNumbers (k : Fin 6) : k ∈ channelNumbers := by revert k; decide
theorem mem_pairNumbers (j : Fin 6) : j ∈ pairNumbers := by revert j; decide
theorem mem_countPinNumbers (p : Fin 12) : p ∈ countPinNumbers := by revert p; decide
theorem mem_dinNumbers (n : Fin 8) : n ∈ dinNumbers := by revert n; decide
theorem mem_bankNumbers (b : Fin 3) : b ∈ bankNumbers := by revert b; decide

/-- Line n is the PAIR_EVEN line of pair j. -/
theorem State.pairEven_iff (s : State) (n : Fin 12) (j : Fin 6) :
    (j = pairOfLine n ∧ s.pairing n = .pairEven) ↔ (n = evenLine j ∧ (s.pair j).paired = true) := by
  constructor
  · rintro ⟨rfl, h⟩
    unfold State.pairing at h
    split at h
    next hp =>
      split at h
      next he => exact ⟨by ext; simp [evenLine, pairOfLine]; omega, hp⟩
      next => cases h
    next => cases h
  · rintro ⟨rfl, h⟩
    have hj : pairOfLine (evenLine j) = j := by ext; simp [evenLine, pairOfLine]
    refine ⟨hj.symm, ?_⟩
    rw [State.pairing, hj, if_pos h, if_pos (by simp [evenLine])]

theorem State.pairOdd_iff (s : State) (n : Fin 12) :
    s.pairing n = .pairOdd ↔ (s.pair (pairOfLine n)).paired = true ∧ n = oddLine (pairOfLine n) := by
  unfold State.pairing
  split
  next hp =>
    split
    next he => simp [oddLine, pairOfLine, Fin.ext_iff]; omega
    next he =>
      have : n = oddLine (pairOfLine n) := by simp [oddLine, pairOfLine, Fin.ext_iff]; omega
      exact ⟨fun _ => ⟨hp, this⟩, fun _ => rfl⟩
  next hp => exact ⟨(fun h => by cases h), (fun h => absurd h.1 hp)⟩

theorem State.pairing_congr {s t : State} (h : ∀ j : Fin 6, (t.pair j).paired = (s.pair j).paired) (n : Fin 12) :
    t.pairing n = s.pairing n := by simp [State.pairing, h]

theorem State.onlyMatrix_trans {s t u : State} (h : t = { s with matrix := t.matrix }) (h' : u = { t with matrix := u.matrix }) :
    u = { s with matrix := u.matrix } := by
  rw [h'] ; rw [h]

/-- What a fold of line actions over a list of lines does, when each line's action depends on that line alone. -/
theorem State.lines_fold (act : Fin 12 → Line → Option Bool) (f : State → Fin 12 → State)
    (hf : ∀ s n, f s n = match act n (s.line n) with | some v => s.setLogical n v none | none => s)
    (l : List (Fin 12)) : ∀ s : State, l.Nodup →
    l.foldl f s = { s with matrix := (l.foldl f s).matrix } ∧ (l.foldl f s).matrix.shut = s.matrix.shut
      ∧ (∀ i, (l.foldl f s).line i = if i ∈ l then
          (match act i (s.line i) with | some v => { s.line i with active := v, pulseLeft := none } | none => s.line i)
        else s.line i)
      ∧ ∀ j, (l.foldl f s).pair j =
          if evenLine j ∈ l ∧ (∃ v, act (evenLine j) (s.line (evenLine j)) = some v ∧ (s.line (evenLine j)).active ≠ v)
            ∧ s.ownedPair j = true ∧ s.trip.permit = .permitted then (s.pair j).inGap else s.pair j := by
  induction l with
  | nil => intro s _; exact ⟨rfl, rfl, fun i => by simp, fun j => by simp⟩
  | cons n l ih =>
    intro s hd
    obtain ⟨hn, hd⟩ := List.nodup_cons.mp hd
    have hstep : f s n = { s with matrix := (f s n).matrix } ∧ (f s n).matrix.shut = s.matrix.shut
        ∧ (∀ i, (f s n).line i = if i = n then
            (match act n (s.line n) with | some v => { s.line n with active := v, pulseLeft := none } | none => s.line n)
          else s.line i)
        ∧ ∀ j, (f s n).pair j = if n = evenLine j ∧ (∃ v, act n (s.line n) = some v ∧ (s.line n).active ≠ v)
            ∧ s.ownedPair j = true ∧ s.trip.permit = .permitted then (s.pair j).inGap else s.pair j := by
      rw [hf]
      cases ha : act n (s.line n) with
      | none =>
        refine ⟨rfl, rfl, fun i => ?_, fun j => by simp⟩
        by_cases hi : i = n
        · simp [hi]
        · simp [hi]
      | some v =>
        obtain ⟨g1, g2, g3, g4⟩ := s.setLogical_cases n v none
        refine ⟨g1, g2, fun i => by rw [g3], fun j => ?_⟩
        rw [g4]
        have key := s.pairEven_iff n j
        by_cases hj : j = pairOfLine n ∧ s.pairing n = .pairEven
        · obtain ⟨hjn, hev⟩ := hj
          have hx := (key.mp ⟨hjn, hev⟩).1
          simp only [hjn.symm, hev, hx.symm, true_and, Option.some.injEq, exists_eq_left']
        · have hx : ¬(n = evenLine j ∧ s.ownedPair j = true) := fun ⟨h1, h2⟩ =>
            hj (key.mpr ⟨h1, by simp [State.ownedPair] at h2; exact h2.1⟩)
          rw [if_neg (fun h => hj ⟨h.1, h.2.2.1⟩), if_neg (fun h => hx ⟨h.1, h.2.2.1⟩)]
    obtain ⟨g1, g2, g3, g4⟩ := hstep
    have htrip : (f s n).trip = s.trip := by rw [g1]
    rw [List.foldl_cons]
    generalize f s n = u at *
    obtain ⟨h1, h2, h3, h4⟩ := ih u hd
    have hpaired : ∀ j, (u.pair j).paired = (s.pair j).paired := fun j => by rw [g4]; split <;> rfl
    have howner : ∀ i, (u.line i).owner = (s.line i).owner := fun i => by
      rw [g3]; split
      next h => subst h; cases act i (s.line i) <;> rfl
      next => rfl
    have hown := State.ownedPair_congr howner hpaired
    generalize List.foldl f u l = t at *
    refine ⟨?_, h2.trans g2, fun i => ?_, fun j => ?_⟩
    · exact State.onlyMatrix_trans g1 h1
    · rw [h3, g3]
      by_cases hi : i = n
      · subst hi; simp [hn]
      · simp [hi]
    · rw [h4, hown, htrip, g4, g3]
      by_cases hj : n = evenLine j
      · subst hj; simp [hn]
      · have hj' : ¬evenLine j = n := fun h => hj h.symm
        simp [hj, hj']

/-- Everything the release of a channel's lines does (R142). -/
theorem State.releaseLines_cases (s : State) (k : Fin 6) :
    s.releaseLines k = { s with matrix := (s.releaseLines k).matrix }
      ∧ (s.releaseLines k).matrix.shut = s.matrix.shut
      ∧ (∀ n, (s.releaseLines k).line n = if (s.line n).owner = .channel k then (s.line n).cleared else s.line n)
      ∧ ∀ j, (s.releaseLines k).pair j =
          if (s.line (evenLine j)).owner = .channel k ∧ (s.line (evenLine j)).active = true ∧ s.ownedPair j = true
            ∧ s.trip.permit = .permitted then (s.pair j).inGap else s.pair j := by
  obtain ⟨h1, h2, h3, h4⟩ := State.lines_fold (fun _ l => if l.owner = .channel k then some false else none)
    (State.releaseLine k) (fun t n => by unfold State.releaseLine State.lineAction; split <;> rfl) lineNumbers s (by decide)
  unfold State.releaseLines
  refine ⟨h1, h2, fun n => ?_, fun j => ?_⟩
  · rw [h3]
    by_cases h : (s.line n).owner = .channel k <;> simp [h, mem_lineNumbers, Line.cleared]
  · rw [h4]
    by_cases h : (s.line (evenLine j)).owner = .channel k <;> simp [h, mem_lineNumbers]

/-- Everything the partial release does (R88, R142). -/
theorem State.partialRelease_cases (s : State) (k : Fin 6) :
    s.partialRelease k = { s with matrix := (s.partialRelease k).matrix }
      ∧ (s.partialRelease k).matrix.shut = s.matrix.shut
      ∧ (∀ n, (s.partialRelease k).line n =
          if (s.line n).owner = .channel k ∧ (s.line n).active = true ∧ (s.line n).pulseLeft = none
          then (s.line n).cleared else s.line n)
      ∧ ∀ j, (s.partialRelease k).pair j =
          if ((s.line (evenLine j)).owner = .channel k ∧ (s.line (evenLine j)).active = true
            ∧ (s.line (evenLine j)).pulseLeft = none) ∧ s.ownedPair j = true ∧ s.trip.permit = .permitted
          then (s.pair j).inGap else s.pair j := by
  obtain ⟨h1, h2, h3, h4⟩ := State.lines_fold
    (fun _ l => if l.owner = .channel k ∧ l.active = true ∧ l.pulseLeft = none then some false else none)
    (State.partialReleaseLine k) (fun t n => by unfold State.partialReleaseLine State.lineAction; split <;> rfl)
    lineNumbers s (by decide)
  unfold State.partialRelease
  refine ⟨h1, h2, fun n => ?_, fun j => ?_⟩
  · rw [h3]
    by_cases h : (s.line n).owner = .channel k ∧ (s.line n).active = true ∧ (s.line n).pulseLeft = none <;>
      simp [h, mem_lineNumbers, Line.cleared]
  · rw [h4]
    by_cases h : (s.line (evenLine j)).owner = .channel k ∧ (s.line (evenLine j)).active = true
        ∧ (s.line (evenLine j)).pulseLeft = none <;> simp [h, mem_lineNumbers]

/-- Everything DRIVE_LINES does once accepted (R156). -/
theorem State.driveLines_cases (s : State) (w : Word) :
    lineNumbers.foldl (State.driveLine w) s = { s with matrix := (lineNumbers.foldl (State.driveLine w) s).matrix }
      ∧ (lineNumbers.foldl (State.driveLine w) s).matrix.shut = s.matrix.shut
      ∧ (∀ n, (lineNumbers.foldl (State.driveLine w) s).line n =
          if w.getLsbD n.val then { s.line n with active := w.getLsbD (16 + n.val), pulseLeft := none } else s.line n)
      ∧ ∀ j, (lineNumbers.foldl (State.driveLine w) s).pair j =
          if w.getLsbD (evenLine j).val = true ∧ (s.line (evenLine j)).active ≠ w.getLsbD (16 + (evenLine j).val)
            ∧ s.ownedPair j = true ∧ s.trip.permit = .permitted then (s.pair j).inGap else s.pair j := by
  obtain ⟨h1, h2, h3, h4⟩ := State.lines_fold
    (fun n _ => if w.getLsbD n.val then some (w.getLsbD (16 + n.val)) else none) (State.driveLine w)
    (fun t n => by
      unfold State.driveLine State.lineAction bit
      cases w.getLsbD n.val <;> cases w.getLsbD (16 + n.val) <;> rfl) lineNumbers s (by decide)
  refine ⟨h1, h2, fun n => ?_, fun j => ?_⟩
  · rw [h3]
    cases h : w.getLsbD n.val <;> simp [mem_lineNumbers]
  · rw [h4]
    cases h : w.getLsbD (evenLine j).val <;> simp [mem_lineNumbers]

end Sys2Proof.Machine
end

