-- ==== Sys2Proof/Laws/Port.lean ====
section
/-! SUPPORT. What a word slot of the Host Port can do (R1, R4, R5, R6), and the level of a pin between
instants (R148). -/

namespace Sys2Proof.Machine

/-! ### Written words (R4, R6) -/

/-- A word slot sets MISO and nothing else. -/
theorem State.carry_eq (s : State) (w : Word) : s.carry w = { s with port := { s.port with miso := .word w } } := rfl

/-- A written word of the register that an active transaction addresses acts, and MISO carries 0. -/
theorem State.writeSlot_of_inTransaction {s : State} {index : BitVec 7} {t : Transaction}
    (h : s.inTransaction (writeByte index) t) (act : Transaction → State → State) :
    s.writeSlot index act = act t { s with port := { s.port with miso := .word 0#32 } } := by
  obtain ⟨h1, h2, h3⟩ := h
  unfold State.writeSlot
  simp only [h1, h2, h3, if_true, State.carry_eq]

/-- In a transaction that is not active a written word changes nothing but MISO, which carries 0 (R6). -/
theorem State.writeSlot_inactive {s : State} {index : BitVec 7} {t : Transaction} (h : s.port.transaction = some t)
    (hc : t.command = some (writeByte index)) (ha : t.active = false) (act : Transaction → State → State) :
    s.writeSlot index act = { s with port := { s.port with miso := .word 0#32 } } := by
  unfold State.writeSlot
  simp only [h, hc, ha, if_true, Bool.false_eq_true, if_false, State.carry_eq]

/-- With CS_N high no written word acts (R1). -/
theorem State.writeSlot_idle {s : State} (h : s.port.transaction = none) (index : BitVec 7)
    (act : Transaction → State → State) : s.writeSlot index act = s := by
  unfold State.writeSlot; rw [h]

/-- The first word acts. -/
theorem State.firstWord_awaited (act : State → State) (t : Transaction) (s : State) (h : t.first = .awaited) :
    State.firstWord act t s = act (s.withTransaction { t with first := .past }) := if_pos h

/-- A later word does not act. -/
theorem State.firstWord_later (act : State → State) (t : Transaction) (s : State) (h : t.first ≠ .awaited) :
    State.firstWord act t s = s.withTransaction { t with first := .past } := if_neg h

/-- The next bit of the first word acts, and the bits behind it are left. -/
theorem State.firstWordBit_next {parts left : List Nat} {word : Word} {b : Nat} {t : Transaction}
    (h : t.first.left parts word = b :: left) (act : State → State) (s : State) :
    State.firstWordBit parts word b act t s = act (s.withTransaction { t with first := .after word left }) := by
  unfold State.firstWordBit; rw [h]; exact if_pos rfl

/-- With no bit left the word is a later one, and nothing acts. -/
theorem State.firstWordBit_later {parts : List Nat} {word : Word} {t : Transaction} (h : t.first.left parts word = [])
    (b : Nat) (act : State → State) (s : State) :
    State.firstWordBit parts word b act t s = s.withTransaction { t with first := .past } := by
  unfold State.firstWordBit; rw [h]

/-! ### Read slots (R5) -/

/-- A slot of an active transaction opens with what the port decides at its start, and nothing else changes. -/
theorem State.readSlot_opens {s : State} {index : BitVec 7} {t : Transaction} (h : s.inTransaction (readByte index) t)
    (hs : t.slot = none) (decide : Transaction → State → Slot) (finish : State → SlotOutcome → State) :
    s.readSlot index .opens decide finish = s.withTransaction { t with slot := some (decide t s) } := by
  obtain ⟨h1, h2, h3⟩ := h
  unfold State.readSlot
  simp only [h1, h2, h3, hs, if_true]

/-- A slot ends as it decided: when it was opened, or now when one row takes it whole (log entry 7). -/
theorem State.readSlot_completes {s : State} {index : BitVec 7} {t : Transaction} (h : s.inTransaction (readByte index) t)
    (decide : Transaction → State → Slot) (finish : State → SlotOutcome → State) :
    s.readSlot index .completes decide finish =
      let x := t.slot.getD (decide t s)
      finish { s with port := { s.port with
        transaction := some { t with slot := none, first := .past }, miso := .word x.presented } } x.outcome := by
  obtain ⟨h1, h2, h3⟩ := h
  unfold State.readSlot
  simp only [h1, h2, h3, if_true]
  rfl

/-! ### Pins (R148) -/

/-- Between instants a pin of a part that is ready has its resolved level. -/
theorem State.pinLevel_between {s : State} (hr : s.power.ready = true) (h : s.instant = none) (n : Fin 12) :
    s.pinLevel n = s.resolvedPin n := by
  unfold State.pinLevel; rw [hr, h]; rfl

/-- Within an instant a pin keeps the level that the instant began with. -/
theorem State.pinLevel_within {s : State} {held : Vector PinLevel 12} (hr : s.power.ready = true) (h : s.instant = some held)
    (n : Fin 12) : s.pinLevel n = held[n] := by
  unfold State.pinLevel; rw [hr, h]; rfl

end Sys2Proof.Machine
end

