-- ==== Sys2Proof/Laws/Queues.lean ====
section
/-! SUPPORT. The queues keep their capacities: notices and replies that enter the RNQ (R26, R27), and messages that
enter the CIQ (R7, R8). -/

namespace Sys2Proof.Machine

/-- The RNQ with its reservation: at most 32 messages with the reserved slot, at most 24 notices, all whole. -/
def Outbox.Holds (o : Outbox) : Prop :=
  o.rnq.length + (if o.reserved then 1 else 0) ≤ 32 ∧ o.noticeCount ≤ 24 ∧ ∀ m ∈ o.rnq, m.whole

theorem Outbox.Holds.enqueue {o : Outbox} {n : Notice} (hn : n.body.length ≤ 7) (ha : o.admits = true) (h : o.Holds) :
    (o.enqueue n).Holds := by
  obtain ⟨h1, h2⟩ := o.admits_iff.mp ha
  refine ⟨?_, ?_, ?_⟩
  · show (o.rnq ++ [_]).length + (if o.reserved then 1 else 0) ≤ 32
    rw [List.length_append, List.length_singleton]
    omega
  · rw [Outbox.noticeCount_enqueue]; omega
  · intro m hm
    rcases List.mem_append.mp hm with hm | hm
    · exact h.2.2 m hm
    · rw [List.mem_singleton.mp hm]; exact Notice.message_whole hn _

theorem Outbox.Holds.lose {o : Outbox} (k : NoticeKind) (h : o.Holds) : (o.lose k).Holds := by
  unfold Outbox.Holds
  rw [Outbox.lose_rnq, Outbox.lose_reserved, Outbox.noticeCount_lose]
  exact h

/-- An offered notice keeps the RNQ within its capacity (R27, R28). -/
theorem State.offer_holds {s : State} {n : Notice} (hn : n.body.length ≤ 7) (h : s.out.Holds) : (s.offer n).out.Holds := by
  have lossy : (s.out.lossNotice n).body.length ≤ 7 := by simp [Outbox.lossNotice]
  unfold State.offer
  simp only
  split
  next ha =>
    have hr : (s.out.reportLosses n).Holds := by
      unfold Outbox.reportLosses
      split
      · exact Outbox.Holds.enqueue lossy ha h
      · exact h
    split
    next hb => exact hr.enqueue hn hb
    next => exact hr.lose _
  next => exact h.lose _

/-- A reply takes the reserved slot (R23, R26). -/
theorem State.admitReply_holds {s : State} {m : Message} {r : Reply} (hr : r.body.length ≤ 7) (hs : s.out.reserved = true)
    (h : s.out.Holds) : (s.admitReply m r).out.Holds := by
  obtain ⟨h1, h2, h3⟩ := h
  rw [hs] at h1
  refine ⟨?_, ?_, ?_⟩
  · show (s.out.rnq ++ [replyMessage m r]).length + 0 ≤ 32
    simp only [List.length_append, List.length_singleton]
    simpa using h1
  · show ((s.out.rnq ++ [replyMessage m r]).filter isNotice).length ≤ 24
    rw [List.filter_append, List.filter_singleton, replyMessage_not_notice]
    simpa [Outbox.noticeCount] using h2
  · intro x hx
    rcases List.mem_append.mp hx with hx | hx
    · exact h3 x hx
    · rw [List.mem_singleton.mp hx]; exact replyMessage_whole hr

/-- The taking of a message frees a CIQ slot and reserves an RNQ slot (R23). -/
theorem State.takeMessage_holds {s : State} {m : Message} {rest : List Message} (ht : s.takes m rest) (h : s.out.Holds) :
    (s.takeMessage rest).out.Holds ∧ (s.takeMessage rest).port.ciq.length + 1 = s.port.ciq.length := by
  refine ⟨⟨?_, h.2⟩, by rw [ht.1]; rfl⟩
  show s.out.rnq.length + 1 ≤ 32
  exact ht.2

end Sys2Proof.Machine
end

