-- ==== Sys2Proof/Laws/Runs.lean ====
section
/-! SUPPORT. What the operations of Machine/Runs.lean can do: each leaves everything outside channel k, the
notices, the lines, the permit and the ledger as it was (RunFrame), and the parts of channel k that it writes
are named. -/

namespace Sys2Proof.Machine

/-! ### The frame of all that channel k does -/

/-- From s to t only channel k has acted: its own state but for the staged set, notices, logical states with
their pulses and gaps, the permit with the last trip and the handed flags, the ledger, and the held times of
count-input candidates. -/
structure State.RunFrame (k : Fin 6) (s t : State) : Prop where
  fields : t = { s with
    port := t.port, out := t.out, inputs := t.inputs, channels := t.channels, matrix := t.matrix, trip := t.trip, ledger := t.ledger }
  notifies : s.onlyNotifies t
  din : t.inputs.din = s.inputs.din
  levels : ∀ p : Fin 12, (t.countPin p).pin = (s.countPin p).pin ∧ (t.countPin p).filtered = (s.countPin p).filtered
  others : ∀ i : Fin 6, i ≠ k → t.chan i = s.chan i
  staged : (t.chan k).staged = (s.chan k).staged
  shut : t.matrix.shut = s.matrix.shut
  lines : ∀ n : Fin 12, (t.line n).owner = (s.line n).owner ∧ (t.line n).safe = (s.line n).safe
    ∧ (t.line n).inverted = (s.line n).inverted
  pairs : ∀ j : Fin 6, (t.pair j).paired = (s.pair j).paired ∧ (t.pair j).gap = (s.pair j).gap
  trip : t.trip = { s.trip with permit := t.trip.permit, handed := t.trip.handed, last := t.trip.last }

variable {k : Fin 6} {s t u : State}

theorem State.RunFrame.refl (k : Fin 6) (s : State) : s.RunFrame k s :=
  ⟨rfl, s.onlyNotifies_refl, rfl, fun _ => ⟨rfl, rfl⟩, fun _ _ => rfl, rfl, rfl, fun _ => ⟨rfl, rfl, rfl⟩,
    fun _ => ⟨rfl, rfl⟩, rfl⟩

theorem State.RunFrame.trans (h : s.RunFrame k t) (h' : t.RunFrame k u) : s.RunFrame k u where
  fields := by rw [h'.fields, h.fields]
  notifies := State.onlyNotifies_trans h.notifies h'.notifies
  din := h'.din.trans h.din
  levels p := ⟨(h'.levels p).1.trans (h.levels p).1, (h'.levels p).2.trans (h.levels p).2⟩
  others i hi := (h'.others i hi).trans (h.others i hi)
  staged := h'.staged.trans h.staged
  shut := h'.shut.trans h.shut
  lines n := ⟨(h'.lines n).1.trans (h.lines n).1, (h'.lines n).2.1.trans (h.lines n).2.1,
    (h'.lines n).2.2.trans (h.lines n).2.2⟩
  pairs j := ⟨(h'.pairs j).1.trans (h.pairs j).1, (h'.pairs j).2.trans (h.pairs j).2⟩
  trip := by rw [h'.trip, h.trip]

/-- A step that changes channel k alone. -/
theorem State.RunFrame.modChan (s : State) (k : Fin 6) (f : Channel → Channel) (hf : ∀ c, (f c).staged = c.staged) :
    s.RunFrame k (s.modChan k f) :=
  ⟨rfl, State.onlyNotifies_of_eq rfl rfl rfl, rfl, fun _ => ⟨rfl, rfl⟩, fun _ hi => s.chan_modChan_other hi f,
    by rw [s.chan_modChan_same k f, hf (s.chan k)], rfl, fun _ => ⟨rfl, rfl, rfl⟩, fun _ => ⟨rfl, rfl⟩, rfl⟩

theorem State.RunFrame.nextOrdinal (k : Fin 6) (s : State) : s.RunFrame k s.nextOrdinal :=
  ⟨rfl, State.onlyNotifies_of_eq rfl rfl rfl, rfl, fun _ => ⟨rfl, rfl⟩, fun _ _ => rfl, rfl, rfl, fun _ => ⟨rfl, rfl, rfl⟩,
    fun _ => ⟨rfl, rfl⟩, rfl⟩

theorem State.RunFrame.offer (k : Fin 6) (s : State) (n : Notice) : s.RunFrame k (s.offer n) where
  fields := by rw [(s.offer_cases n).1]
  notifies := (s.offer_cases n).2.1
  din := by rw [s.offer_inputs n]
  levels p := by rw [s.offer_countPin n p]; exact ⟨rfl, rfl⟩
  others i _ := s.offer_chan n i
  staged := by rw [s.offer_chan n k]
  shut := by rw [s.offer_matrix n]
  lines i := by rw [s.offer_line n i]; exact ⟨rfl, rfl, rfl⟩
  pairs j := by rw [s.offer_pair n j]; exact ⟨rfl, rfl⟩
  trip := by rw [s.offer_trip n]

theorem State.RunFrame.offerIf (k : Fin 6) (s : State) (b : Bool) (n : Notice) : s.RunFrame k (s.offerIf b n) := by
  unfold State.offerIf; split
  · exact .offer k s n
  · exact .refl k s

/-- A step that changes logical states, pulses and gaps alone. -/
theorem State.RunFrame.ofMatrix (k : Fin 6) (h : t = { s with matrix := t.matrix }) (shut : t.matrix.shut = s.matrix.shut)
    (lines : ∀ n : Fin 12, (t.line n).owner = (s.line n).owner ∧ (t.line n).safe = (s.line n).safe
      ∧ (t.line n).inverted = (s.line n).inverted)
    (pairs : ∀ j : Fin 6, (t.pair j).paired = (s.pair j).paired ∧ (t.pair j).gap = (s.pair j).gap) : s.RunFrame k t where
  fields := by rw [h]
  notifies := State.onlyNotifies_of_eq (by rw [h]) (by rw [h]) (by rw [h])
  din := by rw [h]
  levels p := by rw [h]; exact ⟨rfl, rfl⟩
  others i _ := by rw [h]; rfl
  staged := by rw [h]; rfl
  shut := shut
  lines := lines
  pairs := pairs
  trip := by rw [h]

theorem State.RunFrame.setLogical (k : Fin 6) (s : State) (n : Fin 12) (active : Bool) (pulse : Option Nat) :
    s.RunFrame k (s.setLogical n active pulse) := by
  obtain ⟨h1, h2, h3, h4⟩ := s.setLogical_cases n active pulse
  refine .ofMatrix k h1 h2 (fun i => ?_) fun j => ?_
  · rw [h3]; split
    next h => subst h; exact ⟨rfl, rfl, rfl⟩
    next => exact ⟨rfl, rfl, rfl⟩
  · rw [h4]; split <;> exact ⟨rfl, rfl⟩

theorem State.RunFrame.releaseLines (k i : Fin 6) (s : State) : s.RunFrame k (s.releaseLines i) := by
  obtain ⟨h1, h2, h3, h4⟩ := s.releaseLines_cases i
  exact .ofMatrix k h1 h2 (fun n => by rw [h3]; split <;> exact ⟨rfl, rfl, rfl⟩) fun j => by rw [h4]; split <;> exact ⟨rfl, rfl⟩

theorem State.RunFrame.partialRelease (k i : Fin 6) (s : State) : s.RunFrame k (s.partialRelease i) := by
  obtain ⟨h1, h2, h3, h4⟩ := s.partialRelease_cases i
  exact .ofMatrix k h1 h2 (fun n => by rw [h3]; split <;> exact ⟨rfl, rfl, rfl⟩) fun j => by rw [h4]; split <;> exact ⟨rfl, rfl⟩

theorem State.chan_of_matrix {m : LineMatrix} (h : t = { s with matrix := m }) : t.chan k = s.chan k := by subst h; rfl

/-! ### Captures and firings (R122, R127) -/

theorem Channel.takeRecord_staged (c : Channel) (r : CaptureRecord) : (c.takeRecord r).staged = c.staged := by
  unfold Channel.takeRecord; split <;> rfl

/-- A capture attempt takes one ordinal and writes the FIFO and the overcapture count of its channel (R127). -/
theorem State.captureAttempt_cases (s : State) (k : Fin 6) (cause : BitVec 4) (value : Word) :
    s.RunFrame k (s.captureAttempt k cause value)
      ∧ (s.captureAttempt k cause value).chan k = (s.chan k).takeRecord ⟨value, (s.chan k).captureIndex, cause, s.out.ordinal⟩
      ∧ (s.captureAttempt k cause value).matrix = s.matrix ∧ (s.captureAttempt k cause value).trip = s.trip
      ∧ (s.captureAttempt k cause value).ledger = s.ledger
      ∧ (s.captureAttempt k cause value).out.ordinal = s.out.ordinal + 1#16 := by
  unfold State.captureAttempt
  refine ⟨((State.RunFrame.nextOrdinal k s).trans (.modChan _ k _ (by exact fun _ => Channel.takeRecord_staged _ _))).trans (.offer k _ _), ?_, ?_, ?_, ?_, ?_⟩ <;>
    simp

/-- The channel after captures: its FIFO and overcapture count alone have changed. -/
def Channel.SameButCaptures (c d : Channel) : Prop := d = { c with captures := d.captures, overcapture := d.overcapture }

theorem Channel.takeRecord_same (c : Channel) (r : CaptureRecord) : c.SameButCaptures (c.takeRecord r) := by
  unfold Channel.takeRecord Channel.SameButCaptures; split <;> rfl

/-- A line action of a mark changes the line table alone. -/
theorem State.markAction_cases (s : State) (k : Fin 6) (m : Mark) :
    s.RunFrame k (s.markAction m) ∧ s.markAction m = { s with matrix := (s.markAction m).matrix } := by
  have h : ∀ (n : Fin 12) (a : LineAction), s.RunFrame k (s.lineAction n a)
      ∧ s.lineAction n a = { s with matrix := (s.lineAction n a).matrix } := fun n a => by
    cases a <;> exact ⟨.setLogical k s n _ _, (s.setLogical_cases n _ _).1⟩
  unfold State.markAction
  split
  · exact h _ _
  · exact ⟨.refl k s, rfl⟩

/-- A firing changes lines, the FIFO of its channel, and the ordinal by one or, with a capture, two (R122). -/
theorem State.fireMark_cases (s : State) (k : Fin 6) (i : Nat) (m : Mark) (value : Word) :
    s.RunFrame k (s.fireMark k i m value) ∧ (s.chan k).SameButCaptures ((s.fireMark k i m value).chan k)
      ∧ (s.fireMark k i m value).trip = s.trip ∧ (s.fireMark k i m value).ledger = s.ledger
      ∧ (s.fireMark k i m value).out.ordinal = s.out.ordinal + (if m.capture then 2#16 else 1#16) := by
  obtain ⟨g1, g2⟩ := s.markAction_cases k m
  have gc : (s.markAction m).chan k = s.chan k := by rw [g2]; rfl
  have go : (s.markAction m).out = s.out := by rw [g2]
  have gt : (s.markAction m).trip = s.trip := by rw [g2]
  have gl : (s.markAction m).ledger = s.ledger := by rw [g2]
  unfold State.fireMark
  generalize s.markAction m = v at g1 gc go gt gl
  by_cases hc : m.capture = true
  · obtain ⟨h1, h2, -, h4, h5, h6⟩ := v.captureAttempt_cases k (BitVec.ofNat 4 (i + 1)) value
    simp only [hc, if_true]
    refine ⟨(g1.trans h1).trans ((State.RunFrame.nextOrdinal k _).trans (.offerIf k _ _ _)), ?_, ?_, ?_, ?_⟩
    · unfold State.offerIf; split
      · rw [State.offer_chan, State.nextOrdinal_chan, h2, gc]; exact Channel.takeRecord_same _ _
      · rw [State.nextOrdinal_chan, h2, gc]; exact Channel.takeRecord_same _ _
    · unfold State.offerIf; split <;> simp [h4, gt]
    · unfold State.offerIf; split <;> simp [h5, gl]
    · unfold State.offerIf; split <;> simp [h6, go, BitVec.add_assoc]
  · simp only [hc, Bool.false_eq_true, if_false]
    refine ⟨g1.trans ((State.RunFrame.nextOrdinal k _).trans (.offerIf k _ _ _)), ?_, ?_, ?_, ?_⟩
    · unfold State.offerIf; split
      · rw [State.offer_chan, State.nextOrdinal_chan, gc]; rfl
      · rw [State.nextOrdinal_chan, gc]; rfl
    all_goals unfold State.offerIf; split <;> simp [gt, gl, go]

/-- The channel after firings: its arming state, FIFO and overcapture count alone have changed. -/
def Channel.SameButMarks (c d : Channel) : Prop :=
  d = { c with arming := d.arming, captures := d.captures, overcapture := d.overcapture }

theorem Channel.SameButMarks.refl (c : Channel) : c.SameButMarks c := rfl

theorem Channel.SameButMarks.trans {c d e : Channel} (h : c.SameButMarks d) (h' : d.SameButMarks e) : c.SameButMarks e := by
  unfold Channel.SameButMarks at *; rw [h', h]

theorem Channel.SameButCaptures.marks {c d : Channel} (h : c.SameButCaptures d) : c.SameButMarks d := by
  unfold Channel.SameButCaptures Channel.SameButMarks at *; rw [h]

/-- What the firings of a step do to the state: the frame of channel k, its marks and captures, no trip and no
ledger. -/
structure State.Fired (k : Fin 6) (s t : State) : Prop where
  frame : s.RunFrame k t
  chan : (s.chan k).SameButMarks (t.chan k)
  trip : t.trip = s.trip
  ledger : t.ledger = s.ledger

theorem State.Fired.refl (k : Fin 6) (s : State) : s.Fired k s := ⟨.refl k s, rfl, rfl, rfl⟩

theorem State.Fired.trans (h : s.Fired k t) (h' : t.Fired k u) : s.Fired k u :=
  ⟨h.frame.trans h'.frame, h.chan.trans h'.chan, h'.trip.trans h.trip, h'.ledger.trans h.ledger⟩

theorem State.Fired.fireMark (s : State) (k : Fin 6) (i : Nat) (m : Mark) (value : Word) :
    s.Fired k (s.fireMark k i m value) :=
  have h := s.fireMark_cases k i m value
  ⟨h.1, h.2.1.marks, h.2.2.1, h.2.2.2.1⟩

theorem State.Fired.setArming (s : State) (k : Fin 6) (a : Arming) : s.Fired k (s.setArming k a) :=
  ⟨.modChan s k _ (by exact fun _ => rfl), by unfold State.setArming; rw [s.chan_modChan_same]; rfl, rfl, rfl⟩

theorem State.Fired.fold {α : Type} (k : Fin 6) (f : State → α → State) (hf : ∀ (s : State) (a : α), s.Fired k (f s a)) (l : List α) :
    ∀ s : State, s.Fired k (l.foldl f s) := by
  induction l with
  | nil => exact fun s => .refl k s
  | cons a l ih => exact fun s => (hf s a).trans (ih (f s a))

theorem State.Fired.fireFlag (p : Int) (k : Fin 6) (s : State) (i : Nat) : s.Fired k (State.fireFlag p k s i) := by
  unfold State.fireFlag
  split
  · split
    · exact (State.Fired.setArming s k _).trans (.fireMark _ k _ _ _)
    · exact .refl k s
  · exact .refl k s

theorem State.Fired.fireHead (p : Int) (k : Fin 6) (n : Nat) : ∀ s : State, s.Fired k (State.fireHead p k n s) := by
  induction n with
  | zero => exact fun s => .refl k s
  | succ n ih =>
    intro s
    unfold State.fireHead
    split
    · split
      · split
        · exact ((State.Fired.fireMark s k _ _ _).trans (.setArming _ k _)).trans (ih _)
        · exact .refl k s
      · exact .refl k s
    · exact .refl k s

/-- The firings of an applied forward step (R118, R119). -/
theorem State.Fired.fireMarks (s : State) (k : Fin 6) (p : Int) : s.Fired k (s.fireMarks k p) := by
  unfold State.fireMarks
  split
  · exact .fold k _ (State.Fired.fireFlag p k) _ s
  · exact .fireHead p k _ s

theorem State.Fired.fireCrossing (previous sample : Word) (k : Fin 6) (s : State) (i : Nat) :
    s.Fired k (State.fireCrossing previous sample k s i) := by
  unfold State.fireCrossing
  split
  · split
    · exact .fireMark s k _ _ _
    · exact .refl k s
  · exact .refl k s

/-! ### Copies of the staged set (R71, R74, R75) -/

/-- A candidate that restarts loses its held time; every other pin stays (R39). -/
theorem FrontEnd.count_restartCount (f : FrontEnd) (p q : Fin 12) (within : Bool) :
    (f.restartCount p within).count[q] = if q = p then f.count[p].restart else f.count[q] := by
  unfold FrontEnd.restartCount
  by_cases h : q = p
  · subst h; simp
  · have : p.val ≠ q.val := fun hx => h (Fin.ext hx.symm)
    simp [h, Vector.getElem_set_ne, this]

/-- Filters that may restart change held times alone (R39, R47). -/
theorem State.refilter_cases (before s : State) (k : Fin 6) :
    s.RunFrame k (State.refilter before s)
      ∧ State.refilter before s = { s with inputs := (State.refilter before s).inputs } := by
  have one : ∀ (s : State) (p : Fin 12), s.RunFrame k (State.refilterPin before s p)
      ∧ State.refilterPin before s p = { s with inputs := (State.refilterPin before s p).inputs } := fun s p => by
    unfold State.refilterPin
    split
    · exact ⟨.refl k s, rfl⟩
    · refine ⟨⟨rfl, State.onlyNotifies_of_eq rfl rfl rfl, rfl, fun q => ?_, fun _ _ => rfl, rfl, rfl,
        fun _ => ⟨rfl, rfl, rfl⟩, fun _ => ⟨rfl, rfl⟩, rfl⟩, rfl⟩
      show (FrontEnd.restartCount _ p _).count[q].pin = _ ∧ (FrontEnd.restartCount _ p _).count[q].filtered = _
      rw [FrontEnd.count_restartCount]
      split
      next h => subst h; exact ⟨rfl, rfl⟩
      next => exact ⟨rfl, rfl⟩
  unfold State.refilter
  generalize countPinNumbers = l
  induction l generalizing s with
  | nil => exact ⟨.refl k s, rfl⟩
  | cons p l ih =>
    obtain ⟨h1, h2⟩ := one s p
    obtain ⟨g1, g2⟩ := ih (State.refilterPin before s p)
    exact ⟨h1.trans g1, by rw [List.foldl_cons, g2]; rw [h2]⟩

/-- The channel with the terms, the gate and the stall timer settled anew (R53, R75). -/
def Channel.SameButHeld (c d : Channel) : Prop :=
  d = { c with
    heldStart := d.heldStart, heldRestart := d.heldRestart, heldQuench := d.heldQuench, heldResync := d.heldResync
    gateOpen := d.gateOpen, stallLeft := d.stallLeft }

theorem Channel.evaluate_same (c : Channel) (f : FrontEnd) (oldStall : Byte) : c.SameButHeld (c.evaluate f oldStall) := by
  unfold Channel.evaluate Channel.SameButHeld
  simp only
  split <;> rfl

/-- A copy makes the staged set the active set, ends a pending commit, and settles the held values (R71, R75). -/
theorem State.copyStaged_cases (s : State) (k : Fin 6) :
    s.RunFrame k (s.copyStaged k)
      ∧ ({ s.chan k with active := (s.chan k).staged, commitPending := false } : Channel).SameButHeld ((s.copyStaged k).chan k)
      ∧ s.copyStaged k = { s with inputs := (s.copyStaged k).inputs, channels := (s.copyStaged k).channels } := by
  unfold State.copyStaged
  simp only
  generalize hv : s.modChan k (fun c => { c with active := c.staged, commitPending := false }) = v
  have f1 : s.RunFrame k v := by rw [← hv]; exact .modChan s k _ (by exact fun _ => rfl)
  have c1 : v.chan k = { s.chan k with active := (s.chan k).staged, commitPending := false } := by
    rw [← hv, s.chan_modChan_same]
  have e1 : v = { s with channels := v.channels } := by rw [← hv]; rfl
  obtain ⟨f2, e2⟩ := State.refilter_cases s v k
  have c2 : (State.refilter s v).chan k = v.chan k := by rw [e2]; rfl
  generalize State.refilter s v = w at f2 e2 c2
  refine ⟨(f1.trans f2).trans (.modChan w k _ ?_), ?_, ?_⟩
  · exact fun c => by rw [Channel.evaluate_same c w.inputs (s.chan k).active.stall]
  · rw [w.chan_modChan_same, c2, c1]; exact Channel.evaluate_same _ _ _
  · show ({ w with channels := _ } : State) = _
    rw [e2, e1]; rfl

/-- A boundary applies a pending commit, if there is one, and rebuilds the arming state (R74, R116). -/
theorem State.pendingCopy_frame (s : State) (k : Fin 6) : s.RunFrame k (s.pendingCopy k) := by
  unfold State.pendingCopy
  split
  · exact (s.copyStaged_cases k).1.trans (.modChan _ k _ (by exact fun _ => rfl))
  · exact .refl k s

/-! ### The ends of runs (R87, R90, R91, R99) -/

theorem State.endRun_frame (s : State) (k : Fin 6) : s.RunFrame k (s.endRun k) := by
  unfold State.endRun
  exact (State.RunFrame.releaseLines k k s).trans (.modChan _ k _ (by exact fun _ => rfl))

/-- What the end of a run writes of its channel (R72, R96, R99). -/
theorem State.endRun_chan (s : State) (k : Fin 6) : (s.endRun k).chan k =
    { s.chan k with
      arming := Arming.disarmed (s.chan k).active.order, stallLeft := none, resyncPending := false, windowLeft := none } := by
  unfold State.endRun
  rw [State.chan_modChan_same, State.chan_of_matrix (s.releaseLines_cases k).1]

theorem State.enterComplete_frame (s : State) (k : Fin 6) : s.RunFrame k (s.enterComplete k) := by
  unfold State.enterComplete State.applyEndPolicy
  split
  · exact (State.RunFrame.modChan s k _ (by exact fun _ => rfl)).trans (.partialRelease k k _)
  · exact .modChan s k _ (by exact fun _ => rfl)

theorem State.completeRun_frame (s : State) (k : Fin 6) : s.RunFrame k (s.completeRun k) := by
  unfold State.completeRun
  exact (((s.enterComplete_frame k).trans (.nextOrdinal k _)).trans (.offer k _ _)).trans (State.pendingCopy_frame _ k)

theorem State.finalCycleEnd_frame (s : State) (k : Fin 6) : s.RunFrame k (s.finalCycleEnd k) := by
  unfold State.finalCycleEnd
  exact ((((s.enterComplete_frame k).trans (.nextOrdinal k _)).trans (.offerIf k _ _ _)).trans (.offer k _ _)).trans
    (State.pendingCopy_frame _ k)

/-- Gaps alone keep owners, shapes and pairing. -/
theorem State.onlyGaps_shapes {b : Bool} (h : s.onlyGaps t b) :
    (∀ n : Fin 12, (t.line n).owner = (s.line n).owner ∧ (t.line n).safe = (s.line n).safe
      ∧ (t.line n).inverted = (s.line n).inverted)
      ∧ ∀ j : Fin 6, (t.pair j).paired = (s.pair j).paired ∧ (t.pair j).gap = (s.pair j).gap :=
  ⟨fun n => by rw [h.1 n]; exact ⟨rfl, rfl, rfl⟩, fun j => by rw [h.2.2 j]; split <;> exact ⟨rfl, rfl⟩⟩

theorem State.grant_frame (s : State) (k : Fin 6) (auto : Option (Fin 6)) (hp : s.trip.permit ≠ .permitted) :
    s.RunFrame k (s.grant auto) := by
  obtain ⟨h1, h2, h3, -⟩ := s.grant_cases auto hp
  exact ⟨by rw [h1], h2, by rw [h1], fun p => by rw [h1]; exact ⟨rfl, rfl⟩, fun i _ => by rw [h1]; rfl,
    by rw [h1]; rfl, h3.2.1, (State.onlyGaps_shapes h3).1, (State.onlyGaps_shapes h3).2, by rw [h1]⟩

theorem State.withdraw_frame (s : State) (k : Fin 6) (source : TripSource) (hp : s.trip.permit = .permitted) :
    s.RunFrame k (s.withdraw source) := by
  obtain ⟨h1, h2, h3, -⟩ := s.withdraw_cases source hp
  exact ⟨by rw [h1], h2, by rw [h1], fun p => by rw [h1]; exact ⟨rfl, rfl⟩, fun i _ => by rw [h1]; rfl,
    by rw [h1]; rfl, h3.2.1, (State.onlyGaps_shapes h3).1, (State.onlyGaps_shapes h3).2, by rw [h1]⟩

theorem State.withdrawIf_frame (s : State) (k : Fin 6) (b : Bool) (source : TripSource) : s.RunFrame k (s.withdrawIf b source) := by
  unfold State.withdrawIf
  split
  next h => exact s.withdraw_frame k source h.2
  next => exact .refl k s

theorem State.autoResume_frame (s : State) (k : Fin 6) : s.RunFrame k (s.autoResume k) := by
  unfold State.autoResume
  split
  next h => exact s.grant_frame k _ (by rw [h.2.1]; decide)
  next => exact .refl k s

theorem State.wrap_frame (s : State) (k : Fin 6) : s.RunFrame k (s.wrap k) := by
  unfold State.wrap
  exact ((((State.RunFrame.nextOrdinal k s).trans (State.pendingCopy_frame _ k)).trans (.modChan _ k _ (by exact fun _ => rfl))).trans
    (.offerIf k _ _ _)).trans (State.autoResume_frame _ k)

theorem State.cycleEnd_frame (s : State) (k : Fin 6) : s.RunFrame k (s.cycleEnd k) := by
  unfold State.cycleEnd
  simp only
  split
  · exact (State.RunFrame.modChan s k _ (by exact fun _ => rfl)).trans (State.finalCycleEnd_frame _ k)
  · exact (State.RunFrame.modChan s k _ (by exact fun _ => rfl)).trans (State.wrap_frame _ k)

theorem State.faultOccurrence_frame (s : State) (k : Fin 6) (source : LedgerSource) (kind : LedgerKind) (present : Bool) :
    s.RunFrame k (s.faultOccurrence source kind present) := by
  obtain ⟨h1, h2, h3, -, h5, -, -⟩ := s.faultOccurrence_cases source kind present .soft
  exact ⟨by rw [h1], h2, by rw [h1], fun p => by rw [h1]; exact ⟨rfl, rfl⟩, fun i _ => by rw [h1]; rfl,
    by rw [h1]; rfl, h3.2.1, (State.onlyGaps_shapes h3).1, (State.onlyGaps_shapes h3).2, by rw [h5]; rfl⟩

theorem State.handFault_frame (s : State) (k : Fin 6) (trips : Bool) : s.RunFrame k (s.handFault k trips) := by
  unfold State.handFault
  split
  · refine .trans ?_ (State.withdrawIf_frame _ k _ _)
    exact ⟨rfl, State.onlyNotifies_of_eq rfl rfl rfl, rfl, fun _ => ⟨rfl, rfl⟩, fun _ _ => rfl, rfl, rfl,
      fun _ => ⟨rfl, rfl, rfl⟩, fun _ => ⟨rfl, rfl⟩, rfl⟩
  · exact .refl k s

/-- A channel fault (R99). -/
theorem State.channelFault_frame (s : State) (k : Fin 6) (fault : ChannelFault) : s.RunFrame k (s.channelFault k fault) := by
  unfold State.channelFault
  exact ((((s.endRun_frame k).trans (.modChan _ k _ (by exact fun _ => rfl))).trans (State.faultOccurrence_frame _ k _ _ _)).trans
    (State.handFault_frame _ k _)).trans (State.pendingCopy_frame _ k)

/-! ### Steps, term edges and window ends (R80, R85, R95, R134) -/

theorem Channel.restartStall_staged (c : Channel) : c.restartStall.staged = c.staged := by
  unfold Channel.restartStall; split <;> rfl

theorem State.afterForwardStep_frame (s : State) (k : Fin 6) (p : Int) : s.RunFrame k (s.afterForwardStep k p) := by
  have h : s.RunFrame k (if (s.chan k).state = .running then s.fireMarks k p else s) := by
    split
    · exact (State.Fired.fireMarks s k p).frame
    · exact .refl k s
  unfold State.afterForwardStep
  simp only
  split
  · split
    · exact h.trans (State.cycleEnd_frame _ k)
    · exact h.trans (State.completeRun_frame _ k)
  · exact h

theorem State.countStep_frame (s : State) (k : Fin 6) (forward : Bool) : s.RunFrame k (s.countStep k forward) := by
  unfold State.countStep
  simp only
  split
  · exact .modChan s k _ (by exact fun _ => Channel.restartStall_staged _)
  · split
    · exact s.channelFault_frame k _
    · split
      · exact .trans (.modChan s k _ (by exact fun _ => Channel.restartStall_staged _)) (State.afterForwardStep_frame _ k _)
      · exact .modChan s k _ (by exact fun _ => Channel.restartStall_staged _)

/-- A step handed to channel k (R84, R85). -/
theorem State.takeStep_frame (k : Fin 6) (gate : Bool) (s : State) (forward : Bool) :
    s.RunFrame k (State.takeStep k gate s forward) := by
  unfold State.takeStep
  split
  · split
    · exact .refl k s
    · exact .modChan s k _ (fun c => by unfold Channel.accumulate; simp only; split <;> split <;> rfl)
    all_goals exact s.countStep_frame k forward
  · exact .refl k s

/-- Category 3 of an instant for channel k (R32). -/
theorem State.takeSteps_frame (before after : FrontEnd) (s : State) (k : Fin 6) :
    s.RunFrame k (State.takeSteps before after s k) := by
  have fold : ∀ (gate : Bool) (l : List Bool) (s : State), s.RunFrame k (l.foldl (State.takeStep k gate) s) := by
    intro gate l
    induction l with
    | nil => exact fun s => .refl k s
    | cons a l ih => exact fun s => (State.takeStep_frame k gate s a).trans (ih _)
  unfold State.takeSteps
  refine .trans ?_ (fold _ _ _)
  split
  · exact .modChan s k _ (by exact fun _ => rfl)
  · exact .refl k s

theorem State.reportState_frame (s : State) (k : Fin 6) (old : ChannelState) (cause : Nat) :
    s.RunFrame k (s.reportState k old cause) := by
  unfold State.reportState
  exact (State.RunFrame.nextOrdinal k s).trans (.offerIf k _ _ _)

theorem State.enterQuenched_frame (s : State) (k : Fin 6) : s.RunFrame k (s.enterQuenched k) := by
  unfold State.enterQuenched
  exact (State.RunFrame.releaseLines k k s).trans (.modChan _ k _ (by exact fun _ => rfl))

/-- Category 4 of an instant for channel k, once the DIN levels have been applied (R32, R52). -/
theorem State.evaluateChannel_frame (before : FrontEnd) (s : State) (k : Fin 6) :
    s.RunFrame k (State.evaluateChannel before s k) := by
  have when : ∀ (b : Bool) (f : State → State) (s : State), (∀ t : State, t.RunFrame k (f t)) → s.RunFrame k (State.when b f s) := by
    intro b f s h
    unfold State.when
    split
    · exact h s
    · exact .refl k s
  unfold State.evaluateChannel
  simp only
  have h0 : s.RunFrame k (s.modChan k (·.evaluate s.inputs (s.chan k).active.stall)) := by
    exact .modChan s k _ fun c => by rw [Channel.evaluate_same c s.inputs (s.chan k).active.stall]
  split
  · exact h0
  · refine ((((h0.trans (when _ _ _ fun s => ?_)).trans (when _ _ _ fun s => ?_)).trans (when _ _ _ fun s => ?_)).trans
      (when _ _ _ fun s => ?_)).trans (when _ _ _ fun s => ?_)
    · unfold State.startEdge; split
      · refine (State.RunFrame.modChan s k _ fun c => ?_).trans (State.reportState_frame _ k _ _)
        unfold Channel.beginRun; simp only; split <;> rfl
      · exact .refl k s
    · unfold State.quenchEdge; split
      · exact (s.enterQuenched_frame k).trans (State.reportState_frame _ k _ _)
      · exact .refl k s
    · unfold State.restartEdge; split
      · exact (State.RunFrame.modChan s k _ (by exact fun _ => rfl)).trans (State.reportState_frame _ k _ _)
      · exact .refl k s
    · unfold State.resyncEdge; split
      · exact .modChan s k _ (by exact fun _ => rfl)
      · exact .refl k s
    · unfold State.captureEdge; split
      · exact (s.captureAttempt_cases k _ _).1
      · exact .refl k s

/-- A window end of channel k (R134). -/
theorem State.windowEnd_frame (s : State) (k : Fin 6) (length : WindowLength) : s.RunFrame k (s.windowEnd k length) := by
  unfold State.windowEnd
  simp only
  have h : (s.modChan k Channel.takeSample).RunFrame k
      (if (s.chan k).state = .running then
        markNumbers.foldl (State.fireCrossing ((s.chan k).ring.headD 0#32) (s.chan k).accumulator k) (s.modChan k Channel.takeSample)
      else s.modChan k Channel.takeSample) := by
    split
    · exact (State.Fired.fold k _ (State.Fired.fireCrossing _ _ k) _ _).frame
    · exact .refl k _
  exact ((((((State.RunFrame.modChan s k _ (by exact fun _ => rfl)).trans h).trans (State.pendingCopy_frame _ k)).trans (.nextOrdinal k _)).trans
    (.modChan _ k _ (by exact fun _ => rfl))).trans (.offerIf k _ _ _)).trans (.modChan _ k _ (by exact fun _ => rfl))

end Sys2Proof.Machine
end

