-- ==== Sys2Proof/Tests/Slice0.lean ====
section
/-! SUPPORT. Tests: ill-formed commands that WellFormed refuses, examples of the manual and hand calculations
from its rules as single steps, and one witness for every statement with hypotheses: a concrete state and
operands that meet them, for each clause, at the ends of its range. -/

namespace Sys2Proof.Tests

open Sys2Proof Sys2Proof.Machine

set_option Elab.async false

/-! ### Small states -/

/-- The part after initialisation, with the pins of log entry 4. -/
def ready : State := { State.reset with power := ⟨true, false, true, .power⟩ }

/-- A transaction with a command byte, begun in `ready`. -/
def slot (command : Byte) (first : FirstWord) (x : Option Slot) : Transaction := ⟨true, 0x28#8, some command, first, x⟩

def within (t : Transaction) (s : State) : State := { s with port := { s.port with transaction := some t } }

/-- A message with tag 0x2C. -/
def message (kind : Byte) (channel : BitVec 4) (modifier : BitVec 9) (body : List Word) : Message :=
  ⟨makeHead kind 0x2C#8 channel body.length modifier, body⟩

/-- The message is alone in the CIQ. -/
def sent (m : Message) (s : State) : State := { s with port := { s.port with ciq := [m] } }

/-- The state after a command. -/
def after (c : Instr) (s : State) : State :=
  match exec c s with
  | .next t => t
  | .fault _ | .refused _ => s

/-- The last message of the RNQ after a command. -/
def last (c : Instr) (s : State) : Option Message := (after c s).out.rnq.getLast?

/-- A channel in the given mode and state, its final 10. -/
def inMode (mode : Mode) (state : ChannelState) (c : Channel) : Channel :=
  { c with active := { c.active with mode := mode, final := 10#31 }, staged := { c.staged with mode := mode, final := 10#31 }
           state := state }

def tally (state : ChannelState) (s : State) : State := s.modChan 0 (inMode .tally state)
def owned (n : Fin 12) (o : Owner) (s : State) : State := s.setLine n { s.line n with owner := o }
def paired (j : Fin 6) (s : State) : State := s.setPair j ⟨true, 10#8, none⟩
def permitted (s : State) : State := { s with trip := { s.trip with permit := .permitted } }
def logged (r : LedgerRecord) (s : State) : State := { s with ledger := ⟨s.ledger.records ++ [r], s.ledger.lost⟩ }

/-- A notice as it stands in the RNQ. -/
def oneNotice : Message := ⟨makeHead 0xC1#8 0#8 0#4 0 0#9, []⟩

def queued21 : Outbox := { Outbox.reset with rnq := List.replicate 21 oneNotice }

/-- Channel 1 staged to LOOP with final 1, channel 0 in order (section 4.9). -/
def badCohort : State :=
  (ready.modChan 0 fun c => { c with staged := { c.staged with mode := .tally } }).modChan 1 fun c =>
    { c with staged := { c.staged with mode := .loop } }

/-- COAST, TRIP, auto-resume channel 1, watch 20 (section 9.9): word 0x00140130. -/
def coasting : TripConfig := ⟨false, false, false, false, .coast, .trip, some 1, 20#8⟩

/-! ### Ill-formed commands are refused (R4, R16, R191, R193; R38, R49) -/

theorem test_illFormed_attnMask : (Instr.ignoredRegisterWrite 0x06#7 0#32).wellFormed = false := by decide
theorem test_illFormed_pushHead : (Instr.ignoredRegisterWrite 0x08#7 0#32).wellFormed = false := by decide
theorem test_illFormed_pushBody : (Instr.ignoredRegisterWrite 0x09#7 0#32).wellFormed = false := by decide
theorem test_illFormed_status : (Instr.ignoredRegisterWrite 0x01#7 0x20000#32).wellFormed = false := by decide
theorem test_illFormed_linkCtrl : (Instr.ignoredRegisterWrite 0x05#7 4#32).wellFormed = false := by decide
theorem test_illFormed_countAccept : (Instr.countFilterAccept 0#12).wellFormed = false := by decide
theorem test_illFormed_dinAccept : (Instr.dinFilterAccept 0#8).wellFormed = false := by decide
theorem test_illFormed_discardAssembly : (Instr.discardAssembly 6#32).wellFormed = false := by decide
theorem test_illFormed_discardCiq : (Instr.discardCiq 5#32).wellFormed = false := by decide
theorem test_illFormed_discardRnq : (Instr.discardRnq 3#32).wellFormed = false := by decide
theorem test_illFormed_clearFraming : (Instr.clearFramingSticky 0x20000#32).wellFormed = false := by decide
theorem test_illFormed_clearNoticeLost : (Instr.clearNoticeLostSticky 0x10000#32).wellFormed = false := by decide
theorem test_wellFormed_ident : (Instr.ignoredRegisterWrite 0x00#7 0xFFFFFFFF#32).wellFormed = true := by decide
theorem test_wellFormed_status : (Instr.ignoredRegisterWrite 0x01#7 0x40000#32).wellFormed = true := by decide

/-- The table gives no row any bits, so no word is a command. -/
theorem test_decodeTableWord : decodeTableWord 32 0x012CF400 = none := rfl

/-! ### Worked examples -/

/-- The PING of section 1.2: head 0x012CF400, two body words; the reply head is 0x802CF400. -/
theorem test_ping : last .ping (sent ⟨0x012CF400#32, [0x11111111#32, 0x22222222#32]⟩ ready)
    = some ⟨0x802CF400#32, [0x11111111#32, 0x22222222#32]⟩ := by decide +kernel

/-- PUSH_HEAD of that head opens an assembly that expects two words (R7, R8). -/
theorem test_pushHead : (after (.pushHead 0x012CF400#32) (within (slot 0x08#8 .awaited none) ready)).port.expected = 2 := by
  decide +kernel

/-- Transaction 1 of section 1.2: command byte 0x08, most significant bit first, then the word 0x012CF400. -/
theorem test_transactionRows :
    transactionRows ([false, false, false, false, true, false, false, false] ++ wordBits 0x012CF400#32)
      = [.transactionStart (some 0x08#8), .pushHead 0x012CF400#32, .transactionEnd]
    ∧ (wordBits 0x012CF400#32).take 8 = [false, false, false, false, false, false, false, true] := by decide +kernel

/-- R16: after a first word of 0x1 a second word of 0x2 leaves the CIQ as it is. -/
theorem test_linkCtrl_secondWord :
    let s := within (slot 0x05#8 .awaited none) (sent oneNotice ready)
    ((s.afterRows [.discardAssembly 1#32]).bind (·.afterRows [.discardCiq 2#32])).map (·.port.ciq) = some [oneNotice] := by
  decide +kernel

/-- The framing example of section 1.4: the second head ends the first assembly, and framing-count becomes 1. -/
theorem test_pushHead_framing :
    let s := within (slot 0x08#8 .awaited none) { ready with port := { HostPort.reset with assembly := some ⟨0x01000600#32, [1#32, 2#32]⟩ } }
    let p := (after (.pushHead 0x01000600#32) s).port
    p.framingCount = 1#8 ∧ p.framingSticky = true ∧ p.inSpaceWord = 0x00000307#32 := by decide +kernel

/-- Step 2 of section 1.2: the second body word commits the PING; IN_SPACE then reports 7 and 0. -/
theorem test_pushBody :
    let s := within (slot 0x09#8 .awaited none)
      { ready with port := { HostPort.reset with assembly := some ⟨0x012CF400#32, [0x11111111#32]⟩ } }
    let p := (after (.pushBody 0x22222222#32) s).port
    p.ciq = [⟨0x012CF400#32, [0x11111111#32, 0x22222222#32]⟩] ∧ p.inSpaceWord = 7#32 := by decide +kernel

/-- The skipping example of section 1.3: two unread words are skipped, and the notice's head is carried. -/
theorem test_popHead_skips :
    let s := within (slot 0x8A#8 .awaited none) { ready with
      port := { HostPort.reset with popBuffer := [1#32, 2#32] }
      out := { Outbox.reset with rnq := [⟨0xC0002200#32, [5#32]⟩] } }
    let t := after (.popHead .completes) s
    t.port.miso = .word 0xC0002200#32 ∧ t.port.skippedCount = 2#8 ∧ t.port.popBuffer = [5#32] ∧ t.out.rnq = [] := by decide +kernel

/-- The same example: on an empty queue the slot carries 0, the unread word is skipped and the pop is refused. -/
theorem test_popHead_empty :
    let s := within (slot 0x8A#8 .awaited none) { ready with port := { HostPort.reset with popBuffer := [5#32], skippedCount := 2#8 } }
    let p := (after (.popHead .completes) s).port
    p.miso = .word 0#32 ∧ p.skippedCount = 3#8 ∧ p.refusedNow = true := by decide +kernel

/-- Section 1.2: a third POP_BODY slot carries 0 and is refused. -/
theorem test_popBody_refused :
    let p := (after (.popBody .completes) (within (slot 0x8B#8 .awaited none) ready)).port
    p.miso = .word 0#32 ∧ p.refusedNow = true := by decide +kernel

/-- The framing example: LINK_COUNTS shows 2 and then reads 0. -/
theorem test_linkCounts :
    let s := within (slot 0x84#8 .awaited none) { ready with port := { HostPort.reset with framingCount := 2#8 } }
    let p := (after (.linkCountsRead .completes) s).port
    p.miso = .word 0x00000002#32 ∧ p.linkCountsWord = 0#32 := by decide +kernel

/-- R6 and R187: from reset, initialisation completes by itself and ready becomes 1 (log entry 2). -/
theorem test_reset_becomesReady :
    (State.reset.goOn.pending = [.initialisationComplete]) ∧ (after .initialisationComplete State.reset).power.ready = true := by
  decide +kernel

/-- R2 and R6: while ready is 0 the status byte and a read slot carry 0, and so does what remains of a transaction
that RST_N aborts. -/
theorem test_notReady_miso :
    let s := after (.transactionStart (some 0x8A#8)) State.reset
    s.port.miso = .byte 0#8 ∧ (after (.popHead .completes) s).port.miso = .word 0#32
      ∧ (after .rstnReset (after (.popHead .completes)
          (within (slot 0x8A#8 .awaited none) { ready with out := { Outbox.reset with rnq := [oneNotice] } }))).port.miso = .word 0#32 := by
  decide +kernel

/-- R2 and R192: ready and permit not granted. -/
theorem test_linkStatus : ready.linkStatus = 0x28#8 := by decide +kernel

/-- R35: the reset cause POWER, 6 channels, 12 lines, 8 discrete inputs. -/
theorem test_identify : last .identify (sent (message 0x02#8 15#4 0#9 []) ready)
    = some ⟨0x802CF400#32, [0x00010612#32, 0x080C0601#32]⟩ := by decide +kernel

/-- The LOSS example of section 2.4, step 6: the LOSS notice takes tag 0x18 and reports MARK 2, RUN 1. -/
theorem test_lossNotice :
    let s : State := { ready with out := { queued21 with sequence := 0x18#8, lostMark := 2#8, lostRun := 1#8 } }
    let o := (s.offer ⟨.markHit, 2#4, [0x00000035#32]⟩).out
    o.rnq.drop 21 = [⟨0xC818F400#32, [0x00000035#32, 0x00000102#32]⟩, ⟨0xC0192200#32, [0x00000035#32]⟩]
      ∧ o.lostAny = false := by decide +kernel

/-- Section 4.9: the cohort fails on channel 1, and no channel is changed. -/
theorem test_commit_refused :
    let s := sent (message 0x24#8 15#4 0#9 [3#32]) badCohort
    last .commit s = some ⟨0x802CF204#32, [0x00000F01#32]⟩ ∧ ((after .commit s).chan 0).state = .off := by decide +kernel

/-- Section 4.9: with final 1500 both channels are copied. -/
theorem test_commit :
    let s := sent (message 0x24#8 15#4 0#9 [3#32])
      (badCohort.modChan 1 fun c => { c with staged := { c.staged with final := 1500#31 } })
    last .commit s = some ⟨0x802CF200#32, [0x00000003#32]⟩ ∧ ((after .commit s).chan 1).state = .idle := by decide +kernel

/-- Section 6.10: the record at index 1 is out of order, so the reply names channel 0, mark 1. -/
theorem test_commit_markOrder :
    let mark := fun (target : Nat) (line : Fin 12) (action : MarkAction) =>
      (⟨BitVec.ofNat 32 target, some line, action, 50#16, false, false, .rising⟩ : Mark)
    let s := owned 1 (.channel 0) (owned 2 (.channel 0) (ready.modChan 0 fun c => { c with
      staged := { c.staged with
        mode := .tally, decode := .quad4, final := 1000#31, reference := .toGo
        marks := [mark 0 2 .pulse, mark 150 1 .clear, mark 400 1 .set] } }))
    last .commit (sent (message 0x24#8 15#4 0#9 [1#32]) s) = some ⟨0x802CF204#32, [0x00000100#32]⟩ := by decide +kernel

/-- Section 5.11, the stall under HOLD: START of a channel in the wrong state with a ledger record. -/
theorem test_start_refused :
    let s := logged ⟨0#16, .channel 0, .stall, true, 0#4⟩ ((tally .faulted ready).modChan 0 ({ · with faultedBy := some .stall }))
    last .start (sent (message 0x30#8 15#4 0#9 [1#32]) s) = some ⟨0x802CF205#32, [0x00000101#32]⟩ := by decide +kernel

/-- Section 4.9: HALT with mask 0x0C halts channel 2 and reports channel 3, which is LENT. -/
theorem test_halt_partial :
    let s := (ready.modChan 2 (inMode .span .running)).modChan 3 ({ · with state := .lent })
    last .halt (sent (message 0x33#8 15#4 0#9 [0x0C#32]) s) = some ⟨0x802CF20A#32, [0x00000008#32]⟩ := by decide +kernel

/-- Section 4.9: START of a LENT channel is refused as a whole. -/
theorem test_start_lent :
    let s := (ready.modChan 2 (inMode .span .idle)).modChan 3 ({ · with state := .lent })
    last .start (sent (message 0x30#8 15#4 0#9 [8#32]) s) = some ⟨0x802CF205#32, [0x00000008#32]⟩ := by decide +kernel

/-- Section 6.10: START arms mark 0 of the labelling station, the head. -/
theorem test_start_arms :
    let s := ready.modChan 0 fun c => { inMode .tally .idle c with
      active := { c.active with mode := .tally, final := 1000#31, marks := [⟨600#32, none, .nothing, 0#16, true, false, .rising⟩] } }
    ((after .start (sent (message 0x30#8 15#4 0#9 [1#32]) s)).chan 0).arming = .head (some 0) := by decide +kernel

/-- Section 5.11, steps 2 to 4 at the end of cycle 1: mark 0 fires with 0x0100, the wrap takes 0x0101, V is 0, the
cycle index is 1, and OUT2 pulses for 30 ms. -/
theorem test_countStep_wraps :
    let knife : Mark := ⟨500#32, some 2, .pulse, 30#16, false, false, .rising⟩
    let c := fun c : Channel => { c with
      active := { c.active with mode := .loop, final := 500#31, repeats := 3#16, notifyCycles := true, marks := [knife] }
      state := .running, value := 499#32, arming := .head (some 0) }
    let s := owned 2 (.channel 1) ((ready.modChan 1 c).setCountPin 2 ⟨true, false, some 1⟩)
    let u : State := { permitted s with out := { Outbox.reset with ordinal := 0x0100#16 } }
    let t := after (.countFilterAccept 4#12) u
    (t.chan 1).value = 0#32 ∧ (t.chan 1).cycleIndex = 1#16 ∧ (t.chan 1).arming = .head (some 0)
      ∧ (t.line 2).pulseLeft = some 60000 ∧ t.out.ordinal = 0x0102#16 ∧ t.out.rnq.map (·.body.headD 0#32 &&& 0xFFFF#32) = [0x0101#32] := by
  decide +kernel

/-- Section 3.2, instant 6: both lines change together, a phase error and no step. -/
theorem test_countStep_phaseError :
    let s := ((ready.modChan 0 fun c => { c with
        active := { c.active with mode := .tally, decode := .quad4, final := 100#31 }, state := .running }).setCountPin 0
      ⟨true, false, some 1⟩).setCountPin 1 ⟨false, true, some 1⟩
    let t := after (.countFilterAccept 3#12) s
    (t.chan 0).phaseErrors = 1#8 ∧ (t.chan 0).value = 0#32 := by decide +kernel

/-- R54 and R84: the forward step wraps, and the pending copy then brings a gate that is closed; the backward step of
the same instant is judged by the gate before it, so it is applied, and V is -1. -/
theorem test_countStep_gateBefore :
    let c := fun c : Channel => { c with
      active := { c.active with mode := .loop, decode := .twoLine, final := 2#31 }
      staged := { c.staged with mode := .loop, decode := .twoLine, final := 2#31, gate := some ⟨0, false⟩ }
      state := .running, value := 1#32, commitPending := true }
    let s := ((ready.modChan 1 c).setCountPin 2 ⟨true, false, some 1⟩).setCountPin 3 ⟨true, false, some 1⟩
    let t := after (.countFilterAccept 0xC#12) s
    (t.chan 1).gateOpen = false ∧ (t.chan 1).cycleIndex = 1#16 ∧ (t.chan 1).value = 0xFFFFFFFF#32 := by decide +kernel

/-- R75: a repeat of 5 that a copy brought at a cycle index of 65535 ends the run at the next cycle end (log entry 27);
without a repeat the index wraps and the run goes on. -/
theorem test_cycleEnd_indexWraps :
    let c := fun (n : BitVec 16) (c : Channel) => { c with
      active := { c.active with mode := .loop, final := 2#31, repeats := n }
      state := .running, value := 2#32, cycleIndex := 0xFFFF#16 }
    let t := fun n => (ready.modChan 1 (c n)).cycleEnd 1
    ((t 5#16).chan 1).state = .complete ∧ ((t 5#16).chan 1).cycleIndex = 0#16
      ∧ ((t 0#16).chan 1).state = .running ∧ ((t 0#16).chan 1).cycleIndex = 0#16 := by decide +kernel

/-- R39: a candidate that has restarted within the instant in progress is not accepted in it. -/
theorem test_countFilterAccept_restarted :
    let s := tally .running (ready.setCountPin 0 ⟨true, false, some 2000⟩)
    let t : State := { s with inputs := { s.inputs with restarted := 1#12 } }
    ((after (.countFilterAccept 1#12) t).countPin 0).filtered = false ∧ ((after (.countFilterAccept 1#12) s).countPin 0).filtered = true := by
  decide +kernel

/-- R148: a pulse that ends within an instant reaches its pin when the instant has ended. -/
theorem test_pulseEnd_heldPin :
    let s := (permitted (ready.setLine 11 ⟨.host, false, .opened, true, some 0⟩)).beginInstant
    let t := after (.pulseEnd 11) s
    s.pinLevel 11 = .high ∧ t.pinLevel 11 = .high ∧ t.resolvedPin 11 = .low ∧ t.goOn.pinLevel 11 = .low := by decide +kernel

/-- Section 3.2, instant 1: from LOW LOW to HIGH LOW is forward under QUAD1. -/
theorem test_countStep_quad1 :
    let s := (ready.modChan 0 fun c => { c with
        active := { c.active with mode := .tally, decode := .quad1, final := 100#31 }, state := .running }).setCountPin 0
      ⟨true, false, some 1⟩
    ((after (.countFilterAccept 1#12) s).chan 0).value = 1#32 := by decide +kernel

/-- Section 3.5, step 1: DIN5 falls, the inverted reference rises, and the quench term quenches channel 3. -/
theorem test_quenchTerm :
    let s := (ready.modChan 3 fun c => { inMode .tally .running c with
        active := { c.active with mode := .tally, quenchTerm := ⟨.disj, [⟨2, false⟩, ⟨5, true⟩]⟩ } }).setDinPin 5
      ⟨⟨false, true, some 2000⟩, 2#2, false⟩
    let t := after (.dinFilterAccept 0x20#8) s
    (t.chan 3).state = .quenched ∧ (t.chan 3).heldQuench = true := by decide +kernel

/-- Section 3.5, step 4: the same rise by SET_INPUTS is no edge. -/
theorem test_setInputs_noEdge :
    let s := ready.modChan 3 fun c => { inMode .tally .running c with
      active := { c.active with mode := .tally, quenchTerm := ⟨.disj, [⟨2, false⟩]⟩ } }
    let t := after .setInputs (sent (message 0x18#8 15#4 0#9 [0x0004AAAA#32]) s)
    (t.chan 3).state = .running ∧ (t.chan 3).heldQuench = true := by decide +kernel

/-- Section 6.10, over-speed: at window end 3 the sample 812 crosses 800 from 790 and sets OUT9. -/
theorem test_windowEnd_crossing :
    let m : Mark := ⟨800#32, some 9, .set, 0#16, false, false, .rising⟩
    let s := owned 9 (.channel 5) (ready.modChan 5 fun c => { c with
      active := { c.active with mode := .pace, order := .all, marks := [m] }, staged := { c.staged with mode := .pace }
      state := .running, accumulator := 812#32, ring := [790#32, 450#32], windowLeft := some ⟨0, .w100⟩, arming := .flags 1#8 })
    let t := after (.windowEnd 5) s
    (t.line 9).active = true ∧ (t.chan 5).ring = [812#32, 790#32, 450#32] := by decide +kernel

/-- R133: the window end of a frozen channel whose timer is at zero waits for no instant by itself, stands among the
occurrences of every instant, and is not taken while the freeze lasts. -/
theorem test_windowEnd_frozen :
    let s := (ready.modChan 5 fun c => { inMode .pace .running c with windowLeft := some ⟨0, .w10⟩ }).withTrip
      { ready.trip with permit := .tripped }
    s.untilDue = none ∧ s.dueWindows = [.windowEnd 5] ∧ after (.windowEnd 5) s = s
      ∧ (after (.windowEnd 5) (permitted s)).out.ordinal = 1#16 := by decide +kernel

/-- Section 8.3: the knife pair is in its gap of 200 µs after SET, both pins at their inactive levels. -/
theorem test_driveLines_gap :
    let s := permitted ((owned 4 .host (owned 5 .host ready)).setPair 2 ⟨true, 200#8, none⟩)
    let t := after .driveLines (sent (message 0x44#8 15#4 0#9 [0x00100010#32]) s)
    (t.pair 2).gapLeft = some 400 ∧ t.pinLevel 4 = .low ∧ t.pinLevel 5 = .low ∧ s.pinLevel 5 = .high := by decide +kernel

/-- Section 8.8: bank 2 with an overload: every pin of the bank is OPEN. -/
theorem test_overload_opens :
    let s := owned 8 (.channel 5) (permitted ready)
    let u : State := { s with safety := { s.safety with ovl := s.safety.ovl.set 2 ⟨⟨true, false, some 4⟩, false⟩ } }
    let t := after (.overloadAssert 2) u
    u.pinLevel 8 = .low ∧ t.pinLevel 8 = .opened ∧ t.matrix.shut[2] = true := by decide +kernel

/-- Section 9.9: SET_TRIP with 0x00140130 and 0xFFEBFECF. -/
theorem test_setTrip :
    let t := after .setTrip (sent (message 0x48#8 15#4 0#9 [0x00140130#32, 0xFFEBFECF#32]) ready)
    t.trip.config = coasting ∧ t.trip.watchLeft = some 400000 := by decide +kernel

/-- Section 9.9: TRIP_IN asserts with 0x0500 and the withdrawal takes 0x0501; the TRIP notice names source 1, the
freeze, and 0x0500. -/
theorem test_tripIn :
    let s : State := { permitted ready with out := { Outbox.reset with ordinal := 0x0500#16 } }
    let u : State := { s with
      trip := { s.trip with config := { s.trip.config with tripInEnable := true } }
      safety := { s.safety with tripIn := ⟨⟨false, true, some 4⟩, false⟩ } }
    let t := after .tripInAssert u
    t.trip.permit = .tripped ∧ t.ledger.records = [⟨0x0500#16, .tripIn, .tripInput, true, 0#4⟩]
      ∧ t.out.rnq.getLast?.map (·.body) = some [0x00810501#32, 0x00010500#32] := by decide +kernel

/-- Section 9.9: RESUME while TRIP_IN is low. -/
theorem test_resume_refused :
    let s : State := { ready with
      trip := { ready.trip with permit := .tripped, config := { TripConfig.reset with tripInEnable := true } }
      safety := { ready.safety with tripIn := ⟨.at false, false⟩ } }
    last .resume (sent (message 0x4A#8 15#4 0#9 []) s) = some ⟨0x802CF208#32, [0x00000001#32]⟩ := by decide +kernel

/-- Section 10.2, steps 7 and 9. -/
theorem test_ackFault_channel :
    let s := logged ⟨0x0703#16, .channel 3, .stall, false, 0#4⟩ (logged ⟨0x0700#16, .bank 1, .overload, true, 1#4⟩
      ({ ready.setShut 1 true with safety := { ready.safety with ovl := ready.safety.ovl.set 1 ⟨.at true, false⟩ } }))
    last .ackFault (sent (message 0x51#8 15#4 0#9 []) s) = some ⟨0x802CF400#32, [0x00130703#32, 0x00000001#32]⟩ := by
  decide +kernel

theorem test_ackFault_bank :
    let s := logged ⟨0x0700#16, .bank 1, .overload, false, 1#4⟩ (ready.setShut 1 true)
    last .ackFault (sent (message 0x51#8 15#4 0#9 []) s) = some ⟨0x802CF400#32, [0x01390700#32, 0x00000200#32]⟩
      ∧ (after .ackFault (sent (message 0x51#8 15#4 0#9 []) s)).matrix.shut[1] = false := by
  decide +kernel

/-- Section 10.4: ENGINE_RESET behind queued traffic at seal level 2: the pair is kept and unowned, in no gap. -/
theorem test_engineReset :
    let m := message 0x20#8 0#4 0#9 [0#32]
    let u := permitted (paired 0 (owned 0 (.channel 0) (owned 1 (.channel 0) (tally .running ready))))
    let s : State := { u with
      sealLevel := 2#2
      port := { u.port with ciq := [message 0x53#8 15#4 0#9 [], m, m, m] }
      out := { u.out with rnq := List.replicate 5 oneNotice } }
    let t := after .engineReset s
    t.out.rnq = [⟨0x802CF400#32, [3#32, 5#32]⟩] ∧ (t.pair 0).paired = true ∧ (t.pair 0).gapLeft = none
      ∧ (t.line 0).owner = .nobody ∧ t.trip.permit = .withheld := by decide +kernel

/-! ### Witnesses: the queue and the Host Port -/

theorem witness_StepRunsFrontCommand : (ready.withCommand .ping).pending = .ping :: [] := rfl

/-- The CIQ full, and one message short of it with and without an assembly. -/
theorem witness_PushHeadHandled :
    let full := List.replicate 8 (message 0x01#8 15#4 0#9 [])
    let t := slot 0x08#8 .awaited none
    let s := fun (n : Nat) (a : Option Message) => within t { ready with port := { HostPort.reset with ciq := full.take n, assembly := a } }
    (s 8 none).inTransaction 0x08#8 t ∧ 8 ≤ (s 8 none).port.ciq.length
      ∧ (s 7 none).inTransaction 0x08#8 t ∧ ¬8 ≤ (s 7 none).port.ciq.length
      ∧ headLength 0x012CF000#32 = 0#3 ∧ headLength 0x012CF200#32 ≠ 0#3
      ∧ (s 7 (some ⟨0x012CFE00#32, []⟩)).port.inboundWf ∧ (s 7 (some ⟨0x012CFE00#32, []⟩)).port.assembly.isSome = true := by
  delta State.inTransaction HostPort.inboundWf Message.whole; decide +kernel

/-- No assembly; an assembly of declared length 7 that lacks two words, and one that lacks one. -/
theorem witness_PushBodyHandled :
    let t := slot 0x09#8 .awaited none
    let s := fun (a : Option Message) => within t { ready with port := { HostPort.reset with assembly := a } }
    let a := fun n => (⟨0x012CFE00#32, List.replicate n 1#32⟩ : Message)
    (s none).inTransaction 0x09#8 t ∧ (s none).port.assembly = none
      ∧ (s (some (a 5))).inTransaction 0x09#8 t ∧ (s (some (a 5))).port.assembly = some (a 5)
      ∧ (a 5).body.length + 1 < (headLength (a 5).head).toNat ∧ (a 6).body.length + 1 = (headLength (a 6).head).toNat := by
  delta State.inTransaction; decide +kernel

/-- A POP_HEAD slot on a message: not yet opened, and opened; on an empty queue, and opened on an empty queue; and
one that an ENGINE_RESET has made void. -/
theorem witness_PopHeadSlot :
    let s := fun (l : List Message) (x : Option Slot) =>
      within (slot 0x8A#8 .awaited x) { ready with out := { Outbox.reset with rnq := l } }
    (∀ x ∈ [none, some ⟨oneNotice.head, .hands⟩, some ⟨0#32, .refuses⟩, some ⟨7#32, .void⟩],
        (s [oneNotice] x).inTransaction 0x8A#8 (slot 0x8A#8 .awaited x) ∧ (slot 0x8A#8 .awaited x).slot = x)
      ∧ (s [oneNotice] none).out.rnq = oneNotice :: [] ∧ (s [] none).inTransaction 0x8A#8 (slot 0x8A#8 .awaited none)
      ∧ (s [] none).out.rnq = [] ∧ (some (⟨0#32, .refuses⟩ : Slot)).isSome = true := by
  delta State.inTransaction; decide +kernel

/-- The same of POP_BODY with the last of the seven words. -/
theorem witness_PopBodySlot :
    let s := fun (l : List Word) (x : Option Slot) =>
      within (slot 0x8B#8 .awaited x) { ready with port := { HostPort.reset with popBuffer := l } }
    (∀ x ∈ [none, some ⟨7#32, .hands⟩, some ⟨0#32, .refuses⟩, some ⟨7#32, .void⟩],
        (s [7#32] x).inTransaction 0x8B#8 (slot 0x8B#8 .awaited x) ∧ (slot 0x8B#8 .awaited x).slot = x)
      ∧ (s [7#32] none).port.popBuffer = 7#32 :: [] ∧ (s [] none).inTransaction 0x8B#8 (slot 0x8B#8 .awaited none)
      ∧ (s [] none).port.popBuffer = [] ∧ (some (⟨0#32, .refuses⟩ : Slot)).isSome = true := by
  delta State.inTransaction; decide +kernel

/-- The first slot of a LINK_COUNTS read, and a later one, each opened and not; a slot of every register, of a write, and of a
transaction that is not active. -/
theorem witness_LinkCountsReadOnce :
    (∀ first ∈ [FirstWord.awaited, .past],
        (within (slot 0x84#8 first none) ready).inTransaction 0x84#8 (slot 0x84#8 first none)
        ∧ (slot 0x84#8 first none).slot = none ∧ (slot 0x84#8 first none).first = first
        ∧ ∀ x ∈ [⟨7#32, .hands⟩, (⟨0#32, .void⟩ : Slot)],
          (within (slot 0x84#8 first (some x)) ready).inTransaction 0x84#8 (slot 0x84#8 first (some x))
          ∧ (slot 0x84#8 first (some x)).slot = some x ∧ (slot 0x84#8 first (some x)).slot.isSome = true)
      ∧ (∀ c ∈ [0x80, 0x81, 0x82, 0x83, 0x84, 0x86, 0x8A, 0x8B, 0xFF],
        let t := slot (BitVec.ofNat 8 c) .awaited none
        (within t ready).inTransaction (BitVec.ofNat 8 c) t ∧ (within t ready).port.inboundWf ∧ (within t ready).outboundWf)
      ∧ (0x80#8 ≠ 0x8A#8 ∧ 0x80#8 ≠ 0x8B#8 ∧ 1 ≠ 0)
      ∧ (slot 0x08#8 .awaited none).command = some 0x08#8 ∧ (0x08#8).getLsbD 7 = false
      ∧ ({ slot 0x80#8 .awaited none with active := false } : Transaction).active = false := by
  delta State.inTransaction HostPort.inboundWf State.outboundWf Message.whole; decide +kernel

/-- The word 7, with each of its three bits the next one, and as a later word. -/
theorem witness_FlushesDiscardWhatTheyName :
    (∀ first ∈ [FirstWord.awaited, .acting 7#32 [1, 2], .acting 7#32 [2], .past],
        let t := slot 0x05#8 first none
        (within t ready).inTransaction 0x05#8 t ∧ t.first = first)
      ∧ FirstWord.awaited.left [0, 1, 2] 7#32 = [0, 1, 2] ∧ (FirstWord.acting 7#32 [1, 2]).left [0, 1, 2] 7#32 = [1, 2]
      ∧ (7#32).getLsbD 0 = true ∧ (7#32).getLsbD 1 = true ∧ (7#32).getLsbD 2 = true ∧ partsOf 0x05#7 7#32 ≠ [] := by
  delta State.inTransaction; decide +kernel

/-- Writes of STATUS with both bits, of ATTN_MASK by its first and a later word, and of IDENT, which no register
takes. -/
theorem witness_OrdinaryWritesActOnFirstWord :
    (∀ first ∈ [FirstWord.awaited, .acting 0x30000#32 [17], .past],
        let t := slot 0x01#8 first none
        let u := slot 0x06#8 first none
        (within t ready).inTransaction 0x01#8 t ∧ t.first = first ∧ (within u ready).inTransaction 0x06#8 u ∧ u.first = first)
      ∧ (0x30000#32).getLsbD 16 = true ∧ (0x30000#32).getLsbD 17 = true ∧ partsOf 0x01#7 0x30000#32 = [16, 17]
      ∧ (∀ index ∈ [0x00, 0x7F], isIgnoredWrite (BitVec.ofNat 7 index) 1#32 = true
        ∧ (within (slot (BitVec.ofNat 8 index) .awaited none) ready).inTransaction ((BitVec.ofNat 7 index).setWidth 8)
          (slot (BitVec.ofNat 8 index) .awaited none)) := by
  delta State.inTransaction; decide +kernel

theorem witness_TransactionBeginsAndEnds :
    let t := slot 0x80#8 .awaited none
    ready.port.transaction = none ∧ ready.power.ready = true ∧ State.reset.port.transaction = none
      ∧ State.reset.power.ready = false ∧ (within t ready).port.transaction = some t ∧ t.command = some 0x80#8
      ∧ (within { t with command := none } ready).port.transaction = some { t with command := none }
      ∧ (List.replicate 31 true).length < 32 ∧ (List.replicate 7 true).length < 8 := by
  decide +kernel

/-- A transaction that began in initialisation, with and without an opened slot, before and after its end; every
command byte of a register that has a row. -/
theorem witness_NotReadySlotsChangeNothing :
    ∀ b ∈ [0x08#8, 0x09#8, 0x8A#8, 0x8B#8, 0x84#8, 0x05#8, 0x01#8, 0x06#8, 0x7F#8],
    let t := { slot b .awaited none with active := false, status := 0#8 }
    let u := { t with slot := some ⟨0#32, .void⟩ }
    t.command = some b ∧
    ∀ s ∈ [State.reset, ready], (within t s).port.transaction = some t ∧ t.active = false ∧ (∀ x ∈ t.slot, x = ⟨0#32, .void⟩)
      ∧ (within u s).port.transaction = some u ∧ u.active = false ∧ (∀ x ∈ u.slot, x = ⟨0#32, .void⟩) := by
  decide +kernel

/-! ### Witnesses: power and the Command Engine -/

theorem witness_ResetsGivePowerOnValues :
    (after .rstnReset ready).power.rstnLow = true ∧ ready.power.rstnLow = false := by decide +kernel

theorem witness_InitialisationSettlesInputs : State.reset.initialising = true := rfl

/-- The Command Engine may take a message that stands alone in the CIQ of a part with room in its RNQ. -/
theorem takes_message (s : State) (kind : Byte) (channel : BitVec 4) (modifier : BitVec 9) (body : List Word)
    (h : s.out.rnq.length < 32) :
    (sent (message kind channel modifier body) s).takes (message kind channel modifier body) []
      ∧ (message kind channel modifier body).isCommand kind channel modifier := by
  simp [State.takes, sent, h, Message.isCommand, message, rnqSlots]

/-- A kind next to an assigned one; PING with channel field 14, and READ_CHANNEL with 6; IDENTIFY with one word too
many; a modifier bit just outside; SET_TRIP under seal 1. -/
theorem witness_HeaderChecksRefuseInOrder :
    let m := message 0x54#8 15#4 0#9 []
    (sent m ready).takes m [] ∧ headKind m.head ∉ assignedKinds
      ∧ (Instr.identify, identifyForm) ∈ commandForms ∧ (Instr.setTrip, setTripForm) ∈ commandForms
      ∧ (Instr.readChannel, readChannelForm) ∈ commandForms ∧ (Instr.readFaults, readFaultsForm) ∈ commandForms
      ∧ headKind (message 0x02#8 15#4 0#9 [0#32]).head = identifyForm.kind
      ∧ identifyForm.length.any (· != (message 0x02#8 15#4 0#9 [0#32]).body.length) = true
      ∧ identifyForm.length.any (· != (message 0x02#8 14#4 0#9 []).body.length) = false
      ∧ (headChannel (message 0x02#8 14#4 0#9 []).head != 15#4) = true
      ∧ headKind (message 0x34#8 6#4 0#9 []).head = readChannelForm.kind
      ∧ decide (6 ≤ (headChannel (message 0x34#8 6#4 0#9 []).head).toNat) = true
      ∧ headKind (message 0x50#8 15#4 16#9 []).head = readFaultsForm.kind
      ∧ (headModifier (message 0x50#8 15#4 16#9 []).head &&& ~~~readFaultsForm.modifierMask != 0#9) = true
      ∧ headKind (message 0x48#8 15#4 0#9 [0#32, 0#32]).head = setTripForm.kind
      ∧ (headModifier (message 0x48#8 15#4 0#9 [0#32, 0#32]).head &&& ~~~setTripForm.modifierMask != 0#9) = false
      ∧ setTripForm.sealedFrom.any (· ≤ ({ ready with sealLevel := 1#2 } : State).sealLevel.toNat) = true := by
  delta State.takes; decide +kernel

theorem witness_CommandRowsWaitForTheirMessage :
    (Instr.ping, pingForm) ∈ commandForms ∧ ready.port.ciq = []
      ∧ 32 ≤ ({ ready with out := { Outbox.reset with rnq := List.replicate 32 oneNotice } } : State).out.rnq.length
      ∧ (sent (message 0x02#8 15#4 0#9 []) ready).port.ciq = message 0x02#8 15#4 0#9 [] :: []
      ∧ headKind (message 0x02#8 15#4 0#9 []).head ≠ pingForm.kind := by
  decide +kernel

theorem witness_RepliesEchoTagAndChannel :
    let body := List.replicate 7 0xFFFFFFFF#32
    body.length ≤ 7 ∧ (sent (message 0x01#8 15#4 0#9 body) ready).takes (message 0x01#8 15#4 0#9 body) []
      ∧ (message 0x01#8 15#4 0#9 body).isCommand 0x01#8 15#4 0#9 :=
  ⟨by decide, takes_message _ _ _ _ _ (by decide)⟩

/-- And a candidate that is due now, an assertion owed, and a frozen channel whose stall timer waits for nothing. -/
theorem witness_IdlePartAnswersNextMessage :
    let m := message 0x01#8 15#4 0#9 []
    (sent m ready).pending = [] ∧ (sent m ready).initialising = false ∧ (sent m ready).owesAssertion = false
      ∧ (sent m ready).takes m [] ∧ ready.pending = [] ∧ ready.initialising = false ∧ ready.port.ciq = []
      ∧ ready.untilDue = none ∧ ready.power.ready = true
      ∧ (let s := ready.setCountPin 10 ⟨true, false, some 1⟩
        s.untilDue = some 0 ∧ s.pending = [] ∧ s.initialising = false ∧ s.port.ciq = [])
      ∧ (let s : State := sent m { ready with safety := { ready.safety with supplyOk := ⟨.at false, true⟩ } }
        s.untilDue = some 0 ∧ s.pending = [] ∧ s.initialising = false ∧ s.owesAssertion = true)
      ∧ (let s := ready.modChan 5 fun c => { inMode .tally .running c with stallLeft := some 0 }
        s.untilDue = some 0 ∧ (s.withTrip { s.trip with permit := .tripped }).untilDue = none) := by
  delta State.takes; decide +kernel

/-- Every reading command, by its kind and modifier; READ_MARKS from the highest index; a LENT channel. -/
theorem witness_ReadCommandsOnlyAnswer :
    let lent := ready.modChan 5 ({ · with state := .lent })
    (∀ kind, let m := message kind 15#4 0#9 []
      (sent m ready).takes m [] ∧ m.isCommand kind 15#4 0#9 ∧ m.body = [])
      ∧ (∀ kind modifier, let m := message kind 5#4 modifier []
        (sent m ready).takes m [] ∧ m.isCommand kind (channelField 5) modifier ∧ m.body = []
        ∧ (sent m lent).takes m [] ∧ ((sent m ready).chan 5).state ≠ .lent ∧ ((sent m lent).chan 5).state = .lent)
      ∧ 15#9 &&& 0x1F0#9 = 0#9 :=
  ⟨fun kind => ⟨(takes_message ready kind 15#4 0#9 [] (by decide)).1, (takes_message ready kind 15#4 0#9 [] (by decide)).2, rfl⟩,
    fun kind modifier => ⟨(takes_message ready kind 5#4 modifier [] (by decide)).1,
      (takes_message ready kind 5#4 modifier [] (by decide)).2, rfl, (takes_message _ kind 5#4 modifier [] (by decide)).1,
      by simp [sent, State.chan, ready, State.reset, Channel.reset], rfl⟩,
    by decide⟩

/-- A full ledger, 24 notices, and a watch at its longest. -/
theorem witness_StatusWordsReportTheState :
    let s : State := { ready with
      ledger := ⟨List.replicate 16 ⟨0#16, .soft, .softTrip, false, 0#4⟩, true⟩
      out := { Outbox.reset with rnq := List.replicate 24 oneNotice }
      trip := { ready.trip with watchLeft := some (255 * 20000) } }
    s.ledger.records.length ≤ 16 ∧ s.out.noticeCount ≤ 24 ∧ s.trip.watchLeft.getD 0 ≤ 255 * tenMilliseconds := by
  decide +kernel

/-- Channel 5 with its stall timer at the longest time. -/
def stalling : State := ready.modChan 5 fun c => { inMode .tally .running c with stallLeft := some 5100000 }

/-- The same channel, one whose stall timer is stopped, and one with eight marks in both lists, a full ring and a
window of a second. -/
theorem witness_ChannelWordsReportTheChannel :
    let m : Mark := ⟨0#32, none, .nothing, 0#16, true, false, .rising⟩
    let c := { ChannelConfig.default with marks := List.replicate 8 m }
    let s := ready.modChan 5 fun d => { inMode .pace .running d with
      active := c, staged := c, ring := [1#32, 2#32, 3#32, 4#32], windowLeft := some ⟨2000000, .w1000⟩ }
    (stalling.chan 5).stallLeft.getD 0 ≤ 255 * tenMilliseconds
      ∧ inRange ((stalling.chan 5).active.progress (stalling.chan 5).value) = true
      ∧ (stalling.chan 5).stallLeft = some 5100000 ∧ (s.chan 5).stallLeft = none
      ∧ (s.chan 5).active.marks.length ≤ 8 ∧ (s.chan 5).staged.marks.length ≤ 8
      ∧ (s.chan 5).ring.length ≤ 4 ∧ (∀ x ∈ (s.chan 5).windowLeft, x.left ≤ 1000 * millisecond) := by
  decide +kernel

/-! ### Witnesses: configuration -/

theorem witness_StagedFieldsReadBack :
    let t : Term := ⟨.disj, [⟨7, true⟩, ⟨0, false⟩, ⟨7, false⟩]⟩
    (2147483647#31) ≠ 0#31 ∧ t.wellFormed ∧ Term.never.wellFormed ∧ t.refs.length ≤ 3
      ∧ (List.replicate 8 (⟨0#32, none, .nothing, 0#16, true, false, .rising⟩ : Mark)).length ≤ 8 := by
  delta Term.wellFormed; decide +kernel

theorem witness_MarkAndTripWordsReadBack :
    let m : Mark := ⟨0x80000000#32, some 11, .pulse, 0xFFFF#16, true, true, .falling⟩
    let n : Mark := ⟨0#32, none, .nothing, 0#16, false, false, .rising⟩
    (m.action = .nothing ↔ m.line = none) ∧ (n.action = .nothing ↔ n.line = none) := by
  decide +kernel

theorem witness_StagingWaitsForPendingCommit :
    let s := ready.modChan 5 ({ · with commitPending := true })
    (s.chan 5).commitPending = true
      ∧ (∀ p ∈ [(0x20#8, 1), (0x21#8, 2), (0x22#8, 2), (0x23#8, 2), (0x29#8, 0)], ∀ m ∈ [message p.1 5#4 0#9 (List.replicate p.2 0#32)],
        (sent m s).takes m [] ∧ m.isCommand p.1 (channelField 5) 0#9 ∧ m.body.length = p.2)
      ∧ (7#9).toNat < 8 ∧ (message 0x28#8 5#4 7#9 [0#32, 0#32]).isCommand 0x28#8 (channelField 5) 7#9
      ∧ (message 0x28#8 5#4 7#9 [0#32, 0#32]).body.length = 2 := by
  delta State.takes Message.isCommand; decide +kernel

/-- A set with one field of every group away from its default. -/
def someSet : ChannelConfig :=
  { ChannelConfig.default with
    mode := .pace, decode := .quad4, final := 2147483647#31, startTerm := ⟨.disj, [⟨7, true⟩]⟩, gate := some ⟨7, true⟩ }

/-- The words of a set; and a mode code of 5, a final of 0, a window code of 3, a term with an operator and no
references, and a gate DIN without a gate. -/
theorem witness_StagingWritesItsGroup :
    (∀ m ∈ [message 0x20#8 5#4 0#9 [modeWord someSet], message 0x21#8 5#4 0#9 (targetsWords someSet),
        message 0x22#8 5#4 0#9 (termsWords someSet), message 0x23#8 5#4 0#9 (guardWords someSet),
        message 0x20#8 5#4 0#9 [5#32], message 0x21#8 5#4 0#9 [0#32, 0#32], message 0x21#8 5#4 0#9 [1#32, 0x30000#32],
        message 0x22#8 5#4 0#9 [4#32, 0#32], message 0x23#8 5#4 0#9 [2#32, 0#32]],
      (sent m ready).takes m [] ∧ m.isCommand (headKind m.head) (channelField 5) 0#9)
      ∧ (ready.chan 5).commitPending = false ∧ someSet.final ≠ 0#31
      ∧ someSet.startTerm.wellFormed ∧ someSet.restartTerm.wellFormed ∧ someSet.quenchTerm.wellFormed
      ∧ someSet.resyncTerm.wellFormed ∧ 5 ≤ ((5#32).extractLsb' 0 3).toNat ∧ (0#32).extractLsb' 0 31 = 0#31
      ∧ (0x30000#32).extractLsb' 16 2 = 3#2 ∧ ((4#16).extractLsb' 0 2 = 0#2 ∧ (4#16).getLsbD 2 = true)
      ∧ ((2#32).getLsbD 0 = false ∧ (2#32).extractLsb' 1 4 ≠ 0#4) := by
  delta State.takes Message.isCommand Term.wellFormed; decide +kernel

/-- A list of seven records: index 6 replaces, 7 appends; on an empty list index 1 is beyond the end; and lines 12
and 14, action 5, bits 10 and 15, line NONE with an action and a line without one. -/
theorem witness_MarkListIsStaged :
    let r : Mark := ⟨1#32, some 11, .set, 0#16, false, false, .rising⟩
    let c : ChannelConfig := { ChannelConfig.default with marks := List.replicate 7 r }
    let s := ready.modChan 5 ({ · with staged := c })
    (s.chan 5).commitPending = false
      ∧ (∀ i ∈ [6, 7, 1], let m := message 0x28#8 5#4 (BitVec.ofNat 9 i) r.words
        (BitVec.ofNat 9 i).toNat < 8 ∧ (sent m s).takes m [] ∧ m.isCommand 0x28#8 (channelField 5) (BitVec.ofNat 9 i) ∧ m.body = r.words)
      ∧ (r.action = .nothing ↔ r.line = none)
      ∧ (6#9).toNat < (s.chan 5).staged.marks.length ∧ (7#9).toNat = (s.chan 5).staged.marks.length
      ∧ (ready.chan 5).staged.marks.length < (1#9).toNat
      ∧ (∀ w ∈ [0x1C, 0x1E, 0x5B, 0x41B, 0x801F, 0x1F, 0x0B], let m := message 0x28#8 5#4 0#9 [0#32, BitVec.ofNat 32 w]
        let line := ((BitVec.ofNat 32 w).extractLsb' 0 4).toNat
        let action := ((BitVec.ofNat 32 w).extractLsb' 4 3).toNat
        (sent m s).takes m [] ∧ m.isCommand 0x28#8 (channelField 5) 0#9 ∧ m.body = [0#32, BitVec.ofNat 32 w]
        ∧ ((12 ≤ line ∧ line ≤ 14) ∨ 5 ≤ action ∨ (BitVec.ofNat 32 w).extractLsb' 10 6 ≠ 0#6 ∨ (action = 0 ∧ line ≠ 15)
          ∨ (action ≠ 0 ∧ line = 15)))
      ∧ (message 0x29#8 5#4 0#9 []).isCommand 0x29#8 (channelField 5) 0#9 := by
  delta State.takes Message.isCommand; decide +kernel

/-- Each check of R68 on channel 0 in its turn: LENT, commit-pending, FAULTED to OFF, a busy partner, a named partner,
a mode constraint, and a second record that is out of order, or on a line of another. -/
theorem test_commitFailure :
    let base : State := ready.modChan 0 fun c => { c with staged := { c.staged with mode := .span } }
    let mark := fun (t : Nat) (n : Fin 12) => (⟨BitVec.ofNat 32 t, some n, .set, 0#16, false, false, .rising⟩ : Mark)
    let marked := fun second : Mark => owned 2 (.channel 0) (ready.modChan 0 fun c => { c with
      staged := { c.staged with mode := .tally, final := 9#31, marks := [mark 5 2, second] } })
    ([base.modChan 0 ({ · with state := .lent }), base.modChan 0 ({ · with commitPending := true }),
      ready.modChan 0 fun c => { c with state := .faulted, active := { c.active with mode := .tally } },
      base.modChan 1 ({ · with state := .idle }), base.modChan 1 fun c => { c with staged := { c.staged with mode := .pace } },
      ready.modChan 0 fun c => { c with staged := { c.staged with mode := .loop } },
      marked (mark 4 2), marked (mark 5 3), marked (mark 5 2)].map fun s => s.commitFailure 3#32 0)
    = [some (.wrongState, 15), some (.wrongState, 15), some (.wrongState, 15), some (.wrongState, 15), some (.badValue, 15),
        some (.badValue, 15), some (.badValue, 1), some (.lineTaken, 1), none] := by decide +kernel

theorem witness_CommitNamesFirstFailure :
    let m := message 0x24#8 15#4 0#9 [3#32]
    (sent m badCohort).takes m [] ∧ m.isCommand 0x24#8 15#4 0#9 ∧ m.body = [3#32]
      ∧ (3#32).extractLsb' 6 26 = 0#26 ∧ (3#32).getLsbD 1 = true
      ∧ (sent m badCohort).commitFailure 3#32 1 = some (.badValue, 15)
      ∧ (∀ j : Fin 6, j < 1 → (3#32).getLsbD j.val = true → (sent m badCohort).commitFailure 3#32 j = none)
      ∧ (0x40#32).extractLsb' 6 26 ≠ 0#26 ∧ (0#32).extractLsb' 0 6 = 0#6 := by
  delta State.takes Message.isCommand; decide +kernel

/-- One channel of each disposition of R70: OFF to be copied, ARMED to be halted, RUNNING to be left, unchanged. -/
def cohort : State :=
  let t := ready.modChan 0 fun c => { c with staged := { c.staged with mode := .tally } }
  let u := t.modChan 2 fun c => { inMode .tally .armed c with staged := { c.staged with mode := .tally, direction := .down } }
  u.modChan 4 fun c => { inMode .tally .running c with staged := { c.staged with mode := .tally, final := 11#31 } }

/-- A cohort in which channel 0 leaves SPAN, with a line and its partner LENT, and channel 2 takes its partner. -/
def lending : State :=
  let t := (ready.modChan 0 fun c => { c with active := { c.active with mode := .span }, state := .idle }).modChan 1
    ({ · with state := .lent })
  owned 10 (.channel 0) (t.modChan 2 fun c => { c with staged := { c.staged with mode := .span } })

theorem witness_CommitAppliesCohort :
    (∀ p ∈ [(cohort, 0x3F), (lending, 5)], let w := BitVec.ofNat 32 p.2
      let m := message 0x24#8 15#4 0#9 [w]
      let s := sent m p.1
      s.takes m [] ∧ m.isCommand 0x24#8 15#4 0#9 ∧ m.body = [w] ∧ w.extractLsb' 6 26 = 0#26 ∧ w.extractLsb' 0 6 ≠ 0#6
      ∧ s.channelsWf ∧ (∀ k : Fin 6, w.getLsbD k.val = true → s.commitFailure w k = none))
    ∧ (cohort.chan 0).disposition = .copied ∧ (cohort.chan 1).disposition = .untouched
    ∧ (cohort.chan 2).disposition = .halted ∧ (cohort.chan 4).disposition = .left
    ∧ (lending.chan 0).disposition = .copied ∧ (lending.chan 2).disposition = .copied := by
  delta State.takes Message.isCommand State.channelsWf Channel.wf State.lentWf; decide +kernel

/-! ### Witnesses: runs and captures -/

/-- START of channels 0 and 5, both IDLE; channel 0 then has a ledger record; and the masks 0 and 0x40. -/
theorem witness_StartLoadsNamedChannels :
    let m := message 0x30#8 15#4 0#9 [0x21#32]
    let s := sent m ((tally .idle ready).modChan 5 (inMode .pace .complete))
    let u := logged ⟨0#16, .channel 0, .stall, false, 0#4⟩ s
    s.takes m [] ∧ m.isCommand 0x30#8 15#4 0#9 ∧ m.body = [0x21#32]
      ∧ (0x21#32).extractLsb' 6 26 = 0#26 ∧ (0x21#32).extractLsb' 0 6 ≠ 0#6
      ∧ (∀ k : Fin 6, (0x21#32).getLsbD k.val = true →
        (decide ((s.chan k).state ≠ .idle ∧ (s.chan k).state ≠ .complete) || s.ledger.records.any (fun r => r.source == .channel k)) = false)
      ∧ u.takes m [] ∧ (0x21#32).getLsbD 0 = true ∧ u.ledger.records.any (fun r => r.source == .channel 0) = true
      ∧ (0x40#32).extractLsb' 6 26 ≠ 0#26 ∧ (0#32).extractLsb' 0 6 = 0#6 := by
  delta State.takes Message.isCommand; decide +kernel

/-- RESTART of a QUENCHED and of an ARMED channel; eight marks under ALL; under SEQUENCE a mark behind the progress
and one ahead of it, and none ahead. -/
theorem witness_RestartReturnsToRunning :
    let m := message 0x31#8 15#4 0#9 [1#32]
    let s := sent m (tally .quenched ready)
    let u := sent m (tally .armed ready)
    let mark := fun n : Nat => (⟨BitVec.ofNat 32 n, none, .nothing, 0#16, true, false, .rising⟩ : Mark)
    let all : ChannelConfig := { ChannelConfig.default with order := .all, marks := List.replicate 8 (mark 1) }
    let c : ChannelConfig := { ChannelConfig.default with marks := [mark 3] ++ mark 5 :: [] }
    s.takes m [] ∧ m.isCommand 0x31#8 15#4 0#9 ∧ m.body = [1#32]
      ∧ (1#32).extractLsb' 6 26 = 0#26 ∧ (1#32).extractLsb' 0 6 ≠ 0#6
      ∧ (∀ k : Fin 6, (1#32).getLsbD k.val = true → (s.chan k).state = .quenched)
      ∧ u.takes m [] ∧ (1#32).getLsbD 0 = true ∧ (u.chan 0).state ≠ .quenched
      ∧ (0x40#32).extractLsb' 6 26 ≠ 0#26 ∧ (0#32).extractLsb' 0 6 = 0#6
      ∧ all.marks.length ≤ 8 ∧ all.order = .all ∧ c.marks.length ≤ 8 ∧ c.order = .sequential
      ∧ (∀ x ∈ [mark 3], c.position x ≤ 3) ∧ 3 < c.position (mark 5) ∧ (∀ x ∈ c.marks, c.position x ≤ 5) := by
  delta State.takes Message.isCommand; decide +kernel

/-- QUENCH of one RUNNING channel that owns line 11; QUENCH of all six, of which five are OFF; the masks 0 and 0x40. -/
theorem witness_QuenchActsPerChannel :
    let s := owned 11 (.channel 0) (tally .running ready)
    (∀ w ∈ [1, 63], let m := message 0x32#8 15#4 0#9 [BitVec.ofNat 32 w]
      (sent m s).takes m [] ∧ m.isCommand 0x32#8 15#4 0#9 ∧ m.body = [BitVec.ofNat 32 w]
      ∧ (BitVec.ofNat 32 w).extractLsb' 6 26 = 0#26 ∧ (BitVec.ofNat 32 w).extractLsb' 0 6 ≠ 0#6
      ∧ ((BitVec.ofNat 32 w).getLsbD 0 && decide (((sent m s).chan 0).state = .running)) = true
      ∧ ((sent m s).line 11).owner = .channel 0
      ∧ (w = 63 → ((BitVec.ofNat 32 w).getLsbD 5 && decide (((sent m s).chan 5).state = .running)) = false))
    ∧ (0x40#32).extractLsb' 6 26 ≠ 0#26 ∧ (0#32).extractLsb' 0 6 = 0#6 := by
  delta State.takes Message.isCommand; decide +kernel

/-- HALT of a FAULTED channel that is handed over and owns line 11, with its record in the ledger; the masks 0 and 0x40. -/
theorem witness_HaltActsPerChannel :
    let m := message 0x33#8 15#4 0#9 [1#32]
    let r : LedgerRecord := ⟨0#16, .channel 0, .stall, true, 0#4⟩
    let c := (tally .faulted ready).modChan 0 ({ · with faultedBy := some .stall })
    let s := sent m (owned 11 (.channel 0) (logged r c))
    s.takes m [] ∧ m.isCommand 0x33#8 15#4 0#9 ∧ m.body = [1#32]
      ∧ (1#32).extractLsb' 6 26 = 0#26 ∧ (1#32).extractLsb' 0 6 ≠ 0#6
      ∧ ((1#32).getLsbD 0 && decide ((s.chan 0).state ≠ .off ∧ (s.chan 0).state ≠ .idle ∧ (s.chan 0).state ≠ .lent)) = true
      ∧ (s.line 11).owner = .channel 0 ∧ (s.chan 0).faultedBy = some .stall ∧ r ∈ s.ledger.records
      ∧ (0x40#32).extractLsb' 6 26 ≠ 0#26 ∧ (0#32).extractLsb' 0 6 = 0#6 := by
  delta State.takes Message.isCommand; decide +kernel

/-- A FIFO of three records and a full one, and a LENT channel. -/
theorem witness_ReadCapturesTakesOldest :
    let m := message 0x38#8 5#4 0#9 []
    let s := fun n => sent m (ready.modChan 5 ({ · with captures := List.replicate n ⟨0#32, 0#12, 1#4, 0#16⟩ }))
    let u := sent m (ready.modChan 5 ({ · with state := .lent }))
    (∀ n ∈ [3, 4], (s n).takes m [] ∧ m.body = [] ∧ m.isCommand 0x38#8 (channelField 5) 0#9 ∧ ((s n).chan 5).state ≠ .lent
      ∧ ((s n).chan 5).captures.length ≤ 4 ∧ ((s n).chan 5).captures.length = n) ∧ u.takes m [] ∧ (u.chan 5).state = .lent := by
  delta State.takes Message.isCommand; decide +kernel

/-! ### Witnesses: lines -/

/-- BIND_LINE and UNBIND_LINE of the highest line; the states of each of their checks. -/
theorem witness_BindingGivesAndTakesOwner :
    let m := message 0x40#8 15#4 0#9 [BitVec.ofNat 32 11 ||| (Owner.channel 5).code.setWidth 32 <<< 8]
    let n := message 0x41#8 15#4 0#9 [BitVec.ofNat 32 11]
    let s := sent m ready
    let odd := sent m (paired 5 ready)
    let mine := owned 11 (.channel 5) s
    let lent := s.modChan 5 ({ · with state := .lent })
    s.takes m [] ∧ s.sealLevel.toNat < 3 ∧ Owner.channel 5 ≠ .nobody ∧ m.isCommand 0x40#8 15#4 0#9
      ∧ m.body = [BitVec.ofNat 32 11 ||| (Owner.channel 5).code.setWidth 32 <<< 8]
      ∧ s.pairing 11 ≠ .pairOdd ∧ (s.line 11).owner = .nobody ∧ (s.chan 5).state ≠ .lent
      ∧ odd.takes m [] ∧ odd.pairing 11 = .pairOdd
      ∧ (owned 11 .host s).takes m [] ∧ ((owned 11 .host s).line 11).owner = .host
      ∧ mine.takes m [] ∧ (mine.line 11).owner = .channel 5 ∧ lent.takes m [] ∧ (lent.chan 5).state = .lent
      ∧ (sent n ready).takes n [] ∧ n.isCommand 0x41#8 15#4 0#9 ∧ n.body = [BitVec.ofNat 32 11]
      ∧ (sent n mine).takes n [] ∧ (mine.chan 5).state.live = false ∧ (mine.chan 5).active.marks = []
      ∧ ((mine.modChan 5 (inMode .tally .armed)).chan 5).state.live = true
      ∧ (∀ w ∈ [0x00C, 0x600, 0x900, 0x1000], let b := message 0x40#8 15#4 0#9 [BitVec.ofNat 32 w]
        (sent b ready).takes b [] ∧ b.isCommand 0x40#8 15#4 0#9 ∧ b.body = [BitVec.ofNat 32 w]
        ∧ (12 ≤ ((BitVec.ofNat 32 w).extractLsb' 0 4).toNat
          ∨ (6 ≤ ((BitVec.ofNat 32 w).extractLsb' 8 4).toNat ∧ ((BitVec.ofNat 32 w).extractLsb' 8 4).toNat ≠ 8)
          ∨ BitVec.ofNat 32 w &&& 0xFFFFF0F0#32 ≠ 0#32))
      ∧ 12 ≤ ((0xC#32).extractLsb' 0 4).toNat ∧ 0x10#32 &&& 0xFFFFFFF0#32 ≠ 0#32 := by
  delta State.takes Message.isCommand; decide +kernel

/-- Line 11 with its partner 10: shaped; clashing with a partner whose safe level is its active level; owned by a
channel at work. -/
theorem witness_ShapeLineSetsPolarityAndSafe :
    let m := message 0x42#8 15#4 0#9
      [BitVec.ofNat 32 11 ||| (BitVec.ofBool true).setWidth 32 <<< 4 ||| (safeCode .low).setWidth 32 <<< 8]
    let s := sent m (paired 5 ready)
    let clash := s.setLine 10 { s.line 10 with safe := .high }
    let live := owned 11 (.channel 0) (tally .running s)
    s.takes m [] ∧ m.isCommand 0x42#8 15#4 0#9 ∧ s.sealLevel.toNat < 2 ∧ pairOfLine 10 = pairOfLine 11 ∧ (10 : Fin 12) ≠ 11
      ∧ m.body = [BitVec.ofNat 32 11 ||| (BitVec.ofBool true).setWidth 32 <<< 4 ||| (safeCode .low).setWidth 32 <<< 8]
      ∧ (s.line 10).safe ≠ (s.line 10).activeLevel ∧ (s.line 11).owner = .nobody
      ∧ clash.takes m [] ∧ (clash.pair (pairOfLine 11)).paired = true
      ∧ PinLevel.low = ({ clash.line 11 with inverted := true, safe := .low } : Line).activeLevel
      ∧ (clash.line 10).safe = (clash.line 10).activeLevel
      ∧ live.takes m [] ∧ (live.line 10).safe ≠ (live.line 10).activeLevel
      ∧ (live.line 11).owner = .channel 0 ∧ (live.chan 0).state.live = true
      ∧ (∀ w ∈ [0x00C, 0x300, 0x020], let b := message 0x42#8 15#4 0#9 [BitVec.ofNat 32 w]
        (sent b ready).takes b [] ∧ b.isCommand 0x42#8 15#4 0#9 ∧ b.body = [BitVec.ofNat 32 w]
        ∧ (12 ≤ ((BitVec.ofNat 32 w).extractLsb' 0 4).toNat ∨ (BitVec.ofNat 32 w).extractLsb' 8 2 = 3#2
          ∨ BitVec.ofNat 32 w &&& 0xFFFFFCE0#32 ≠ 0#32)) := by
  delta State.takes Message.isCommand; decide +kernel

/-- SHAPE_PAIR of the last pair with gap 255, over each of its checks. -/
theorem witness_ShapePairPairsAndSeparates :
    let m := message 0x43#8 15#4 0#9
      [BitVec.ofNat 32 (2 * 5) ||| (BitVec.ofBool true).setWidth 32 <<< 4 ||| (255#8).setWidth 32 <<< 8]
    let s := sent m ready
    let clash := (s.setLine 10 { s.line 10 with safe := .high }).setLine 11 { s.line 11 with safe := .high }
    let held := owned 10 (.channel 0) (owned 11 (.channel 0) (tally .armed s))
    s.takes m [] ∧ m.isCommand 0x43#8 15#4 0#9 ∧ s.sealLevel.toNat < 2 ∧ (true = true ↔ 255#8 ≠ 0#8) ∧ (false = true ↔ 0#8 ≠ 0#8)
      ∧ m.body = [BitVec.ofNat 32 (2 * (5 : Fin 6).val) ||| (BitVec.ofBool true).setWidth 32 <<< 4 ||| (255#8).setWidth 32 <<< 8]
      ∧ (s.line 10).safe ≠ (s.line 10).activeLevel ∧ (s.line 10).owner = (s.line 11).owner ∧ (s.line 10).owner = .nobody
      ∧ clash.takes m [] ∧ (clash.line 10).safe = (clash.line 10).activeLevel ∧ (clash.line 11).safe = (clash.line 11).activeLevel
      ∧ (owned 10 .host s).takes m [] ∧ ((owned 10 .host s).line 10).owner ≠ ((owned 10 .host s).line 11).owner
      ∧ held.takes m [] ∧ (held.line 10).owner = (held.line 11).owner ∧ (held.line 10).owner = .channel 0
      ∧ (held.chan 0).state.live = true ∧ (held.line 10).safe ≠ (held.line 10).activeLevel
      ∧ (∀ w ∈ [0x0A11, 0x0A1C, 0x0A30, 0x0010, 0x0100], let b := message 0x43#8 15#4 0#9 [BitVec.ofNat 32 w]
        let x := BitVec.ofNat 32 w
        (sent b ready).takes b [] ∧ b.isCommand 0x43#8 15#4 0#9 ∧ b.body = [x]
        ∧ (x.getLsbD 0 = true ∨ 11 ≤ (x.extractLsb' 0 4).toNat ∨ x &&& 0xFFFF00E0#32 ≠ 0#32
          ∨ (x.getLsbD 4 = true ∧ x.extractLsb' 8 8 = 0#8) ∨ (x.getLsbD 4 = false ∧ x.extractLsb' 8 8 ≠ 0#8))) := by
  delta State.takes Message.isCommand; decide +kernel

/-- DRIVE_LINES of line 11 owned by the host; of a line the host does not own; with a bit between mask and values. -/
theorem witness_DriveLinesSetsNamedLines :
    (∀ w ∈ [0x08000800, 0x00000001, 0x00001000], let m := message 0x44#8 15#4 0#9 [BitVec.ofNat 32 w]
      (sent m (owned 11 .host ready)).takes m [] ∧ m.isCommand 0x44#8 15#4 0#9 ∧ m.body = [BitVec.ofNat 32 w])
      ∧ 0x08000800#32 &&& 0xF000F000#32 = 0#32
      ∧ (∀ n : Fin 12, (0x08000800#32).getLsbD n.val = true →
        ((owned 11 .host ready).line n).owner = .host ∧ (owned 11 .host ready).pairing n ≠ .pairOdd)
      ∧ (0x00000001#32).getLsbD 0 = true ∧ ((owned 11 .host ready).line 0).owner ≠ .host
      ∧ 0x00001000#32 &&& 0xF000F000#32 ≠ 0#32 := by
  delta State.takes Message.isCommand; decide +kernel

/-- Between instants, and within an instant that holds the pins. -/
theorem witness_PairPinsNeverBothActive :
    let s := permitted (paired 5 (owned 10 .host (owned 11 .host ready)))
    s.linesWf ∧ (s.pair 5).paired = true ∧ s.beginInstant.linesWf ∧ (s.beginInstant.pair 5).paired = true := by
  delta State.linesWf Line.wf State.pairWf State.marksWf State.marksOwned State.heldPinsWf; decide +kernel

theorem witness_PulsesAndGapsEnd :
    let s := ready.setLine 11 { ready.line 11 with owner := .host, active := true, pulseLeft := some 0 }
    (s.line 11).pulseLeft = some 0 ∧ ((ready.setPair 5 ⟨true, 10#8, some 0⟩).pair 5).gapLeft = some 0 := by
  decide +kernel

/-! ### Witnesses: trip, ledger, seals and ENGINE_RESET -/

/-- SET_TRIP granted; PERMITTED with a cause that the new configuration enables; and a bad complement. -/
theorem witness_SetTripConfiguresOrRefuses :
    let m := message 0x48#8 15#4 0#9 [tripWord coasting, ~~~tripWord coasting]
    let n := message 0x48#8 15#4 0#9 [tripWord coasting, tripWord coasting]
    let s := sent m ready
    let lost := permitted { s with trip := { s.trip with hostLost := true } }
    s.takes m [] ∧ m.isCommand 0x48#8 15#4 0#9 ∧ s.sealLevel = 0#2 ∧ m.body = [tripWord coasting, ~~~tripWord coasting]
      ∧ s.trip.permit ≠ .permitted ∧ (permitted s).takes m [] ∧ (permitted s).enabledCausesUnder coasting = 0#32
      ∧ lost.takes m [] ∧ lost.trip.permit = .permitted ∧ lost.enabledCausesUnder coasting ≠ 0#32
      ∧ (sent n ready).takes n [] ∧ n.isCommand 0x48#8 15#4 0#9 ∧ tripWord coasting ≠ ~~~tripWord coasting
      ∧ n.body = [tripWord coasting, tripWord coasting]
      ∧ (∀ w ∈ [0x740, 0x600, 0xF00, 0x01000700], let b := message 0x48#8 15#4 0#9 [BitVec.ofNat 32 w, ~~~BitVec.ofNat 32 w]
        let x := BitVec.ofNat 32 w
        (sent b ready).takes b [] ∧ b.isCommand 0x48#8 15#4 0#9 ∧ b.body = [x, ~~~x]
        ∧ (x.extractLsb' 6 2 ≠ 0#2 ∨ x.extractLsb' 8 3 = 6#3 ∨ x.extractLsb' 11 5 ≠ 0#5 ∨ x.extractLsb' 24 8 ≠ 0#8)) := by
  delta State.takes Message.isCommand; decide +kernel

theorem witness_TripWithdrawsResumeGrants :
    let lost : State := { ready with trip := { ready.trip with config := coasting, hostLost := true } }
    (∀ kind, let m := message kind 15#4 0#9 []
      (sent m ready).takes m [] ∧ m.body = [] ∧ m.isCommand kind 15#4 0#9 ∧ (sent m lost).takes m [] ∧ (sent m (permitted ready)).takes m [])
      ∧ ready.trip.permit ≠ .permitted ∧ ready.enabledCauses = 0#32 ∧ (permitted ready).trip.permit = .permitted
      ∧ lost.trip.permit ≠ .permitted ∧ lost.enabledCauses ≠ 0#32 :=
  ⟨fun kind => ⟨(takes_message ready kind 15#4 0#9 [] (by decide)).1, rfl, (takes_message ready kind 15#4 0#9 [] (by decide)).2,
    (takes_message _ kind 15#4 0#9 [] (by decide)).1, (takes_message _ kind 15#4 0#9 [] (by decide)).1⟩, by decide +kernel⟩

/-- Candidates held for exactly the filter time: towards assertion (from the inactive level), and towards release. -/
def heldSafety (asserting : Bool) : State :=
  { ready with
    safety :=
      ⟨⟨⟨!asserting, asserting, some 4⟩, false⟩, Vector.replicate 3 ⟨⟨asserting, !asserting, some 4⟩, false⟩,
        ⟨⟨!asserting, asserting, some 4⟩, false⟩⟩ }

/-- And the part right after initialisation with every safety input at its active level. -/
theorem witness_CausesAssertAndTrip :
    let s := heldSafety true
    let owing := after .initialisationComplete { State.reset with
      safety := ⟨⟨.at false, false⟩, Vector.replicate 3 ⟨.at true, false⟩, ⟨.at false, false⟩⟩ }
    (s.safety.tripIn.owed = false ∧ s.safety.tripIn.input.heldFor 4 ∧ s.safety.tripIn.input.filtered ≠ s.trip.config.tripInActiveHigh
      ∧ s.safety.ovl[2].owed = false ∧ s.safety.ovl[2].input.heldFor 4 ∧ s.safety.ovl[2].input.filtered = false
      ∧ s.safety.supplyOk.owed = false ∧ s.safety.supplyOk.input.heldFor 4 ∧ s.safety.supplyOk.input.filtered = true
      ∧ ({ s with trip := { s.trip with watchLeft := some 0 } } : State).trip.watchLeft = some 0)
    ∧ (owing.safety.tripIn.owed = true ∧ (∀ b : Fin 3, owing.safety.ovl[b].owed = true) ∧ owing.safety.supplyOk.owed = true
      ∧ owing.pending = [] ∧ owing.initialising = false) :=
  ⟨⟨rfl, ⟨4, rfl, by decide⟩, by decide +kernel, rfl, ⟨4, rfl, by decide⟩, rfl, rfl, ⟨4, rfl, by decide⟩, rfl, rfl⟩, by decide +kernel⟩

theorem witness_CausesReleaseQuietly :
    let s := heldSafety false
    s.safety.tripIn.owed = false ∧ s.safety.tripIn.input.heldFor 4 ∧ s.safety.tripIn.input.filtered = s.trip.config.tripInActiveHigh
      ∧ s.safety.ovl[2].owed = false ∧ s.safety.ovl[2].input.heldFor 4 ∧ s.safety.ovl[2].input.filtered = true
      ∧ s.safety.supplyOk.owed = false ∧ s.safety.supplyOk.input.heldFor 4 ∧ s.safety.supplyOk.input.filtered = false :=
  ⟨rfl, ⟨4, rfl, by decide⟩, rfl, rfl, ⟨4, rfl, by decide⟩, rfl, rfl, ⟨4, rfl, by decide⟩, rfl⟩

theorem witness_ReadFaultsReturnsRecords :
    let m := message 0x50#8 15#4 15#9 []
    let s : State := sent m { ready with ledger := ⟨List.replicate 16 ⟨0#16, .soft, .softTrip, false, 0#4⟩, true⟩ }
    s.takes m [] ∧ (15#9).toNat < 16 ∧ m.isCommand 0x50#8 15#4 15#9 ∧ m.body = [] ∧ s.ledger.records.length ≤ 16 := by
  delta State.takes Message.isCommand; decide +kernel

/-- A STANDING record behind an ACTIVE one; a ledger with ACTIVE records only, with nothing to release, and with a
shut bank to release. -/
theorem witness_AckFaultRemovesOldestStanding :
    let m := message 0x51#8 15#4 0#9 []
    let a : LedgerRecord := ⟨1#16, .tripIn, .tripInput, true, 0#4⟩
    let r : LedgerRecord := ⟨2#16, .bank 2, .overload, false, 15#4⟩
    let s := logged r (logged a (sent m ready))
    let u := logged a (sent m ready)
    let v := u.setShut 2 true
    s.takes m [] ∧ m.isCommand 0x51#8 15#4 0#9 ∧ m.body = [] ∧ s.ledger.records = [a] ++ r :: []
      ∧ s.ledger.records.length ≤ 16 ∧ u.ledger.records.length ≤ 16 ∧ v.ledger.records.length ≤ 16
      ∧ (∀ x ∈ [a], x.active = true) ∧ r.active = false
      ∧ u.takes m [] ∧ (∀ x ∈ u.ledger.records, x.active = true)
      ∧ (∀ b : Fin 3, (u.matrix.shut[b] && !u.safety.ovl[b].input.filtered
        && !u.ledger.records.any fun x => decide (x.source = .bank b ∧ x.kind = .overload)) = false)
      ∧ v.takes m [] ∧ (∀ x ∈ v.ledger.records, x.active = true)
      ∧ (v.matrix.shut[2] && !v.safety.ovl[2].input.filtered
        && !v.ledger.records.any fun x => decide (x.source = .bank 2 ∧ x.kind = .overload)) = true := by
  delta State.takes Message.isCommand; decide +kernel

/-- SEAL at an equal and at a lower level, and with the lowest bit that is not defined. -/
theorem witness_SealOnlyRises :
    let s : State := { ready with sealLevel := 2#2 }
    (∀ n ∈ [1, 2, 4], let m := message 0x52#8 15#4 (BitVec.ofNat 9 n) []
      (sent m s).takes m [] ∧ m.body = [] ∧ m.isCommand 0x52#8 15#4 (BitVec.ofNat 9 n))
      ∧ (2#9).extractLsb' 2 7 = 0#7 ∧ s.sealLevel.toNat ≤ ((2#9).extractLsb' 0 2).toNat
      ∧ (1#9).extractLsb' 2 7 = 0#7 ∧ ((1#9).extractLsb' 0 2).toNat < s.sealLevel.toNat ∧ (4#9).extractLsb' 2 7 ≠ 0#7 := by
  delta State.takes Message.isCommand; decide +kernel

theorem witness_EngineResetResetsUnsealed :
    let m := message 0x53#8 15#4 0#9 []
    (sent m (permitted ready)).takes m [] ∧ m.isCommand 0x53#8 15#4 0#9 ∧ m.body = [] :=
  ⟨(takes_message _ _ _ _ _ (by decide)).1, (takes_message ready _ _ _ _ (by decide)).2, rfl⟩

/-! ### Witnesses: inputs, counting, windows and notices -/

theorem witness_PinChangesStartAndDropCandidates : ready.power.ready = true := rfl

theorem witness_SetInputsRecomputesWithoutEdges :
    (∀ w ∈ [0x00FFFFFF, 0x01000000], let m := message 0x18#8 15#4 0#9 [BitVec.ofNat 32 w]
      (sent m ready).takes m [] ∧ m.isCommand 0x18#8 15#4 0#9 ∧ m.body = [BitVec.ofNat 32 w])
      ∧ ready.sealLevel.toNat < 3 ∧ (0x00FFFFFF#32).extractLsb' 24 8 = 0#8 ∧ (0x01000000#32).extractLsb' 24 8 ≠ 0#8 := by
  delta State.takes Message.isCommand; decide +kernel

/-- A RUNNING channel 5 with a rise of CA5 held for its filter time, at progress `value`. -/
def rising (value : Word) : State :=
  (ready.modChan 5 fun c => { inMode .tally .running c with value := value }).setCountPin 10 ⟨true, false, some 1⟩

/-- And a LENT channel and one in SPAN; a channel in PACE, one with a resync pending, one at the end of its range;
marks under ALL and under SEQUENCE; final cycle ends and wraps. -/
theorem witness_CountedEdgeMovesTally :
    (∀ v ∈ [8, 9], let s := rising (BitVec.ofNat 32 v)
      (s.chan 5).active.mode = .tally ∧ (s.chan 5).active.decode = .step ∧ (s.chan 5).active.edge = .rise
      ∧ (s.chan (partner 5)).active.mode ≠ .span ∧ (s.chan 5).state ≠ .lent ∧ (s.countPin (pinCA 5)).filtered = false
      ∧ s.inputs.restarted.getLsbD (2 * 5) = false
      ∧ (s.countPin (pinCA 5)).held = some 1 ∧ countFilterTime (s.chan 5).active.countFilter ≤ 1
      ∧ (s.chan 5).state.counts = true ∧ (s.chan 5).gateOpen = true ∧ s.frozen 5 = false ∧ (s.chan 5).resyncPending = false
      ∧ -(2 ^ 31) ≤ (s.chan 5).value.toInt + 1 ∧ (s.chan 5).value.toInt + 1 < 2 ^ 31
      ∧ ((s.chan 5).value.toInt + 1 = ((s.chan 5).active.final.toNat : Int) ↔ v = 9))
    ∧ (lending.chan 1).state = .lent ∧ (lending.chan 0).state ≠ .lent ∧ (lending.chan 0).active.mode = .span
    ∧ (∀ d : DecodeKind, ({ ChannelConfig.default with decode := d } : ChannelConfig).decode = d)
    ∧ (let s := rising 0x7FFFFFFF#32
      let p := s.modChan 5 (inMode .pace .quenched)
      let r := s.modChan 5 ({ · with resyncPending := true })
      let applies := fun c : Channel => (c.state = .running ∨ c.state = .quenched) ∧ c.gateOpen = true
      applies (s.chan 5) ∧ (s.chan 5).active.mode = .tally ∧ ¬(s.chan 5).value.toInt + 1 < 2 ^ 31 ∧ s.trip.permit ≠ .tripped
        ∧ applies (p.chan 5) ∧ (p.chan 5).active.mode = .pace ∧ applies (r.chan 5) ∧ (r.chan 5).resyncPending = true)
    ∧ (∀ a ∈ [Arming.flags 0xFF#8, .head (some 7), .head none],
      let c : Channel := { Channel.reset with
        arming := a, active := { ChannelConfig.default with marks := List.replicate 8 ⟨1#32, none, .nothing, 0#16, true, false, .rising⟩ } }
      c.arming = a ∧ c.active.marks.length ≤ 8)
    ∧ (let isFinal := fun c : Channel => c.active.repeats ≠ 0#16 ∧ c.active.repeats.toNat ≤ c.cycleIndex.toNat + 1
      let c := fun n i : BitVec 16 => { Channel.reset with active := { ChannelConfig.default with repeats := n }, cycleIndex := i }
      isFinal (c 5#16 4#16) ∧ isFinal (c 5#16 0xFFFF#16) ∧ ¬isFinal (c 5#16 3#16) ∧ ¬isFinal (c 0#16 0xFFFF#16)) :=
  ⟨by decide +kernel, by decide +kernel, by decide +kernel, by decide +kernel, fun _ => rfl, by decide +kernel, by decide +kernel,
    by decide⟩

/-- And a channel that counts, with a capture source on that DIN and three or four records; one that is frozen; and
one in ARMED and in QUENCHED. -/
theorem witness_TermRisesMoveChannels :
    let pin := ready.setDinPin 7 ⟨⟨true, false, some 2000⟩, 2#2, false⟩
    let s := fun n => pin.modChan 5 fun c => { inMode .tally .running c with
      active := { c.active with mode := .tally, captureSource := some ⟨7, .rise⟩ }, captures := List.replicate n ⟨0#32, 0#12, 0#4, 0#16⟩ }
    let frozen : State := { s 0 with trip := { ready.trip with permit := .tripped } }
    ((0x80#8).getLsbD 7 = true ∧ ∃ d, (pin.dinPin 7).input.held = some d ∧ dinFilterTime (pin.dinPin 7).code ≤ d)
      ∧ (∀ n ∈ [3, 4], (s n).frozen 5 = false ∧ ((s n).chan 5).captures.length = n
        ∧ ((after (.dinFilterAccept 0x80#8) (s n)).chan 5).state = .running)
      ∧ frozen.frozen 5 = true
      ∧ ∀ state ∈ [ChannelState.armed, .running, .quenched], ((tally state ready).chan 0).state = state :=
  ⟨⟨rfl, 2000, by decide +kernel, by decide +kernel⟩, by decide +kernel, by decide +kernel, by decide +kernel⟩

/-- With no record of the channel in the ledger, and with one. -/
theorem witness_StallExpiryFaultsChannel :
    let s := ready.modChan 5 fun c => { inMode .tally .running c with stallLeft := some 0 }
    let r : LedgerRecord := ⟨0#16, .channel 5, .stall, false, 0#4⟩
    (s.chan 5).stallLeft = some 0 ∧ s.frozen 5 = false ∧ (∀ x ∈ s.ledger.records, x.source ≠ .channel 5)
      ∧ s.ledger.records.length < 16 ∧ ((logged r s).chan 5).stallLeft = some 0 ∧ (logged r s).frozen 5 = false
      ∧ r ∈ (logged r s).ledger.records := by
  decide +kernel

theorem witness_WindowEndTakesSample :
    ∀ state ∈ [ChannelState.quenched, .running],
      let s := ready.modChan 5 fun c => { inMode .pace state c with windowLeft := some ⟨0, .w10⟩ }
      (s.chan 5).windowLeft = some ⟨0, .w10⟩ ∧ (s.chan 5).state.counts = true ∧ s.frozen 5 = false ∧ (s.chan 5).state = state := by
  decide +kernel

/-- The queue with the given numbers of notices and of replies, with a loss counted or not. -/
def queued (notices replies : Nat) (lost : Byte) : State :=
  { ready with out := { Outbox.reset with
      rnq := List.replicate notices oneNotice ++ List.replicate replies ⟨0x80000000#32, []⟩, lostRun := lost } }

/-- At 24 notices there is no room; at 23 there is room for one; at 22 for two; and the same at 32, 31 and 30
messages. -/
theorem witness_OfferedNoticeEntersOrIsLost :
    NoticeKind.runEnd ≠ .loss
      ∧ (∀ more < 3, ((queued (24 - more) 0 0#8).out.noticeCount + more = 24 ∧ (queued (24 - more) 0 0#8).out.rnq.length + more < 32))
      ∧ (∀ more < 3, ((queued 10 (22 - more) 0#8).out.noticeCount + more < 24 ∧ (queued 10 (22 - more) 0#8).out.rnq.length + more = 32))
      ∧ (queued 23 0 0#8).out.lostRun = 0#8 ∧ (queued 23 0 1#8).out.lostRun ≠ 0#8
      ∧ (List.replicate 4 (⟨0#32, 0#12, 1#4, 0#16⟩ : CaptureRecord)).length ≤ 4
      ∧ (List.replicate 7 0#32).length ≤ 7 ∧ (ready.modChan 0 ({ · with state := .armed })).chan 0 = { ready.chan 0 with state := .armed }
      ∧ (let r : LedgerRecord := ⟨0#16, .bank 2, .overload, true, 15#4⟩
        let s := logged r ready
        (s.ledger.records.length ≤ 16 ∧ (r ∈ s.ledger.records ∧ r.source = .bank 2 ∧ r.kind = .overload))
        ∧ ∀ x ∈ s.ledger.records, ¬(x.source = .bank 1 ∧ x.kind = .overload)) := by
  decide +kernel

/-! ### Witnesses: what every step keeps -/

theorem witness_QueuesStayWithinCapacity :
    let s := (sent (message 0x01#8 15#4 0#9 [1#32]) ready).withCommand .ping
    s.queuesWf ∧ step s = .next (after .ping (s.withPending [])) := by
  delta State.queuesWf HostPort.inboundWf State.outboundWf Message.whole
  exact ⟨by decide +kernel, rfl⟩

theorem witness_NotReadyMeansPowerOnValues :
    let s := State.reset.withCommand .initialisationComplete
    s.quietUnlessReady ∧ step s = .next (after .initialisationComplete (s.withPending [])) := by
  delta State.quietUnlessReady State.quiet Transaction.inert
  exact ⟨by decide +kernel, rfl⟩

/-- Channel 0 RUNNING in SPAN with its partner LENT, the owner of the pair of lines 10 and 11. -/
def spanning : State :=
  owned 10 (.channel 0) (owned 11 (.channel 0) (paired 5
    ((ready.modChan 0 (inMode .span .running)).modChan 1 ({ · with state := .lent }))))

theorem witness_ChannelsStayConsistent :
    let s := spanning.withCommand .quench
    s.channelsWf ∧ step s = .next (after .quench (s.withPending [])) := by
  delta State.channelsWf Channel.wf State.lentWf
  exact ⟨by decide +kernel, rfl⟩

theorem witness_LineTableStaysSound :
    let s := spanning.withCommand .quench
    s.channelsWf ∧ s.linesWf ∧ step s = .next (after .quench (s.withPending [])) := by
  delta State.channelsWf Channel.wf State.lentWf State.linesWf Line.wf State.pairWf State.marksWf State.marksOwned
    State.heldPinsWf
  exact ⟨by decide +kernel, by decide +kernel, rfl⟩

theorem witness_PermitAndLedgerStayTrue :
    let m := message 0x49#8 15#4 0#9 []
    let s := (logged ⟨0#16, .soft, .softTrip, false, 0#4⟩ (sent m (permitted ready))).withCommand .trip
    s.quietUnlessReady ∧ s.channelsWf ∧ s.tripWf ∧ s.ledgerWf ∧ step s = .next (after .trip (s.withPending [])) := by
  delta State.quietUnlessReady State.quiet Transaction.inert State.channelsWf Channel.wf State.lentWf State.tripWf
    State.faultWf State.permitWf State.owedWf State.ledgerWf LedgerRecord.sameTrouble
  exact ⟨by decide +kernel, by decide +kernel, by decide +kernel, by decide +kernel, rfl⟩

end Sys2Proof.Tests
end

section
/-! What every operation of the part keeps of the queues and of the supply: the CIQ, the RNQ and the pop buffer stay
within their capacities (R7, R9, R11, R19, R26, R27), and power and reset stay as they are (R187). -/

namespace Sys2Proof.Machine

/-! ### The condition and the frame -/

/-- The queues within their capacities, whether or not a slot is reserved for a reply. -/
def State.QueuesHold (s : State) : Prop := s.port.inboundWf ∧ s.out.Holds ∧ s.port.popBuffer.length ≤ 7

/-- Between steps no slot is reserved, and the queues hold. -/
theorem State.queuesWf_iff (s : State) : s.queuesWf ↔ s.QueuesHold ∧ s.out.reserved = false := by
  unfold State.queuesWf State.QueuesHold State.outboundWf Outbox.Holds rnqSlots noticeSlots
  constructor
  · rintro ⟨hin, hlen, hnotices, hres, hwhole, hpop⟩
    exact ⟨⟨hin, ⟨by simpa [hres] using hlen, hnotices, hwhole⟩, hpop⟩, hres⟩
  · rintro ⟨⟨hin, ⟨hlen, hnotices, hwhole⟩, hpop⟩, hres⟩
    exact ⟨hin, by simpa [hres] using hlen, hnotices, hres, hwhole, hpop⟩

/-- From s to t power and reset are as they were, the reserved slot stays as it is, and the queues keep their
capacities. -/
structure State.KeepsQueues (s t : State) : Prop where
  power : t.power = s.power
  reserved : t.out.reserved = s.out.reserved
  queues : s.QueuesHold → t.QueuesHold

variable {s t u : State}

theorem State.KeepsQueues.refl (s : State) : s.KeepsQueues s := ⟨rfl, rfl, id⟩

theorem State.KeepsQueues.trans (h : s.KeepsQueues t) (h' : t.KeepsQueues u) : s.KeepsQueues u :=
  ⟨h'.power.trans h.power, h'.reserved.trans h.reserved, h'.queues ∘ h.queues⟩

/-- What touches neither the supply nor the Host Port nor the Outbox keeps the queues. -/
theorem State.KeepsQueues.of_eq (hpower : t.power = s.power) (hport : t.port = s.port) (hout : t.out = s.out) :
    s.KeepsQueues t :=
  ⟨hpower, by rw [hout], fun h => by unfold State.QueuesHold; rw [hport, hout]; exact h⟩

/-- What changes the Host Port alone keeps the queues when it keeps its own two: the inbound side and the pop buffer. -/
theorem State.KeepsQueues.of_port (hpower : t.power = s.power) (hout : t.out = s.out)
    (hin : s.port.inboundWf → t.port.inboundWf) (hpop : t.port.popBuffer.length ≤ s.port.popBuffer.length) :
    s.KeepsQueues t :=
  ⟨hpower, by rw [hout], fun ⟨h1, h2, h3⟩ => ⟨hin h1, by rw [hout]; exact h2, hpop.trans h3⟩⟩

theorem State.KeepsQueues.ite {c : Prop} [Decidable c] (ht : c → s.KeepsQueues t) (hu : ¬c → s.KeepsQueues u) :
    s.KeepsQueues (if c then t else u) := by
  split
  · exact ht ‹_›
  · exact hu ‹_›

theorem State.KeepsQueues.fold {α : Type} {f : State → α → State} (hf : ∀ (s : State) (a : α), s.KeepsQueues (f s a))
    (l : List α) : ∀ s : State, s.KeepsQueues (l.foldl f s) := by
  induction l with
  | nil => exact .refl
  | cons a l ih => exact fun s => (hf s a).trans (ih _)

theorem State.KeepsQueues.modChan (s : State) (k : Fin 6) (f : Channel → Channel) : s.KeepsQueues (s.modChan k f) :=
  .of_eq rfl rfl rfl

theorem State.KeepsQueues.withLedger (s : State) (l : Ledger) : s.KeepsQueues (s.withLedger l) := .of_eq rfl rfl rfl

theorem State.KeepsQueues.nextOrdinal (s : State) : s.KeepsQueues s.nextOrdinal := ⟨rfl, rfl, id⟩

/-- An offered notice of at most seven words is admitted within the capacity of the RNQ, or lost (R27, R28). -/
theorem State.KeepsQueues.offer (s : State) (n : Notice) (hn : n.body.length ≤ 7 := by simp) : s.KeepsQueues (s.offer n) := by
  obtain ⟨hport, hres, -⟩ := (s.offer_cases n).2.1
  refine ⟨s.offer_power n, hres, fun ⟨hin, hout, hpop⟩ => ⟨?_, State.offer_holds hn hout, ?_⟩⟩
  · rw [hport]; exact hin
  · rw [hport]; exact hpop

theorem State.KeepsQueues.offerIf (s : State) (b : Bool) (n : Notice) (hn : n.body.length ≤ 7 := by simp) :
    s.KeepsQueues (s.offerIf b n) :=
  .ite (fun _ => .offer s n hn) fun _ => .refl s

/-! ### Lines and the permit (R140 to R144, R160, R163, R168) -/

theorem State.KeepsQueues.of_matrix (h : t = { s with matrix := t.matrix }) : s.KeepsQueues t :=
  .of_eq (by rw [h]) (by rw [h]) (by rw [h])

theorem State.setLogical_queues (s : State) (n : Fin 12) (active : Bool) (pulse : Option Nat) :
    s.KeepsQueues (s.setLogical n active pulse) := .of_matrix (s.setLogical_cases n active pulse).1

theorem State.lineAction_queues (s : State) (n : Fin 12) (a : LineAction) : s.KeepsQueues (s.lineAction n a) := by
  cases a <;> exact s.setLogical_queues n _ _

theorem State.releaseLines_queues (s : State) (k : Fin 6) : s.KeepsQueues (s.releaseLines k) :=
  .of_matrix (s.releaseLines_cases k).1

theorem State.setPermit_queues (s : State) (p : Permit) : s.KeepsQueues (s.setPermit p) :=
  .of_eq (by simp) (by simp) (by simp)

theorem State.withdraw_queues (s : State) (source : TripSource) : s.KeepsQueues (s.withdraw source) := by
  unfold State.withdraw
  refine ((s.setPermit_queues .tripped).trans ((State.KeepsQueues.nextOrdinal _).trans ?_)).trans
    (.offer _ _ (by simp [State.tripNotice]))
  exact .of_eq rfl rfl rfl

theorem State.withdrawIf_queues (s : State) (b : Bool) (source : TripSource) : s.KeepsQueues (s.withdrawIf b source) :=
  .ite (fun _ => s.withdraw_queues source) fun _ => .refl s

theorem State.grant_queues (s : State) (auto : Option (Fin 6)) : s.KeepsQueues (s.grant auto) := by
  unfold State.grant
  exact ((s.setPermit_queues .permitted).trans (.nextOrdinal _)).trans (.offer _ _ (by simp [State.permitNotice]))

/-! ### The ledger (R164, R180) -/

theorem State.faultOccurrence_queues (s : State) (source : LedgerSource) (kind : LedgerKind) (present : Bool) :
    s.KeepsQueues (s.faultOccurrence source kind present) := by
  have noted : ∀ (l : Ledger) (n : Notice), n.body.length ≤ 7 → s.KeepsQueues ((s.nextOrdinal.withLedger l).offer n) :=
    fun l n hn => ((State.KeepsQueues.nextOrdinal s).trans (.withLedger _ l)).trans (.offer _ n hn)
  exact .ite (fun _ => (State.KeepsQueues.nextOrdinal s).trans (.withLedger _ _)) fun _ =>
    .ite (fun _ => noted _ _ (by simp [faultNotice])) fun _ => noted _ _ (by simp [faultNotice])

theorem State.causeAsserts_queues (s : State) (source : LedgerSource) (kind : LedgerKind) (present enabled : Bool)
    (trip : TripSource) : s.KeepsQueues (s.causeAsserts source kind present enabled trip) :=
  (s.faultOccurrence_queues source kind present).trans (State.withdrawIf_queues _ _ _)

theorem State.setCondition_queues (s : State) (source : LedgerSource) (kind : LedgerKind) (active : Bool) :
    s.KeepsQueues (s.setCondition source kind active) := .of_eq rfl rfl rfl

/-! ### Captures and firings (R122, R127) -/

theorem State.captureAttempt_queues (s : State) (k : Fin 6) (cause : BitVec 4) (value : Word) :
    s.KeepsQueues (s.captureAttempt k cause value) :=
  ((State.KeepsQueues.nextOrdinal s).trans (.modChan _ k _)).trans (.offer _ _ (by simp [captureNotice]))

theorem State.fireMark_queues (s : State) (k : Fin 6) (i : Nat) (m : Mark) (value : Word) :
    s.KeepsQueues (s.fireMark k i m value) := by
  unfold State.fireMark
  refine (State.KeepsQueues.trans (.of_matrix (s.markAction_cases k m).2) ?_).trans
    ((State.KeepsQueues.nextOrdinal _).trans (.offerIf _ _ _ (by simp [markHitNotice])))
  exact .ite (fun _ => State.captureAttempt_queues _ k _ _) fun _ => .refl _

theorem State.fireFlag_queues (p : Int) (k : Fin 6) (s : State) (i : Nat) : s.KeepsQueues (State.fireFlag p k s i) := by
  unfold State.fireFlag
  split
  · exact .ite (fun _ => (State.KeepsQueues.modChan s k _).trans (State.fireMark_queues _ k _ _ _)) fun _ => .refl s
  · exact .refl s

theorem State.fireHead_queues (p : Int) (k : Fin 6) (n : Nat) : ∀ s : State, s.KeepsQueues (State.fireHead p k n s) := by
  induction n with
  | zero => exact .refl
  | succ n ih =>
    intro s
    unfold State.fireHead
    split
    · split
      · exact .ite (fun _ => ((s.fireMark_queues k _ _ _).trans (.modChan _ k _)).trans (ih _)) fun _ => .refl s
      · exact .refl s
    · exact .refl s

theorem State.fireMarks_queues (s : State) (k : Fin 6) (p : Int) : s.KeepsQueues (s.fireMarks k p) := by
  unfold State.fireMarks
  split
  · exact .fold (State.fireFlag_queues p k) _ s
  · exact State.fireHead_queues p k _ s

theorem State.fireCrossing_queues (previous sample : Word) (k : Fin 6) (s : State) (i : Nat) :
    s.KeepsQueues (State.fireCrossing previous sample k s i) := by
  unfold State.fireCrossing
  split
  · exact .ite (fun _ => s.fireMark_queues k _ _ _) fun _ => .refl s
  · exact .refl s

/-! ### Copies and the ends of runs (R71, R74, R87 to R91, R96, R99) -/

theorem State.copyStaged_queues (s : State) (k : Fin 6) : s.KeepsQueues (s.copyStaged k) := by
  have h := (s.copyStaged_cases k).2.2
  exact .of_eq (by rw [h]) (by rw [h]) (by rw [h])

theorem State.pendingCopy_queues (s : State) (k : Fin 6) : s.KeepsQueues (s.pendingCopy k) :=
  .ite (fun _ => (s.copyStaged_queues k).trans (.modChan _ k _)) fun _ => .refl s

theorem State.endRun_queues (s : State) (k : Fin 6) : s.KeepsQueues (s.endRun k) :=
  (s.releaseLines_queues k).trans (.modChan _ k _)

theorem State.applyEndPolicy_queues (s : State) (k : Fin 6) : s.KeepsQueues (s.applyEndPolicy k) := by
  unfold State.applyEndPolicy
  split
  · exact .of_matrix (s.partialRelease_cases k).1
  · exact .refl s

theorem State.enterComplete_queues (s : State) (k : Fin 6) : s.KeepsQueues (s.enterComplete k) :=
  (State.KeepsQueues.modChan s k _).trans (State.applyEndPolicy_queues _ k)

theorem State.completeRun_queues (s : State) (k : Fin 6) : s.KeepsQueues (s.completeRun k) :=
  ((s.enterComplete_queues k).trans ((State.KeepsQueues.nextOrdinal _).trans
    (.offer _ _ (by simp [runEndNotice])))).trans (State.pendingCopy_queues _ k)

theorem State.finalCycleEnd_queues (s : State) (k : Fin 6) : s.KeepsQueues (s.finalCycleEnd k) :=
  ((s.enterComplete_queues k).trans (((State.KeepsQueues.nextOrdinal _).trans
    (.offerIf _ _ _ (by simp [cycleEndNotice]))).trans (.offer _ _ (by simp [runEndNotice])))).trans
      (State.pendingCopy_queues _ k)

theorem State.autoResume_queues (s : State) (k : Fin 6) : s.KeepsQueues (s.autoResume k) :=
  .ite (fun _ => s.grant_queues _) fun _ => .refl s

theorem State.wrap_queues (s : State) (k : Fin 6) : s.KeepsQueues (s.wrap k) :=
  ((((State.KeepsQueues.nextOrdinal s).trans (State.pendingCopy_queues _ k)).trans (.modChan _ k _)).trans
    (.offerIf _ _ _ (by simp [cycleEndNotice]))).trans (State.autoResume_queues _ k)

theorem State.cycleEnd_queues (s : State) (k : Fin 6) : s.KeepsQueues (s.cycleEnd k) :=
  .ite (fun _ => (State.KeepsQueues.modChan s k _).trans (State.finalCycleEnd_queues _ k)) fun _ =>
    (State.KeepsQueues.modChan s k _).trans (State.wrap_queues _ k)

theorem State.handFault_queues (s : State) (k : Fin 6) (trips : Bool) : s.KeepsQueues (s.handFault k trips) := by
  have handed : s.KeepsQueues (s.setHanded k true) := .of_eq rfl rfl rfl
  exact .ite (fun _ => handed.trans (State.withdrawIf_queues _ _ _)) fun _ => .refl s

theorem State.channelFault_queues (s : State) (k : Fin 6) (fault : ChannelFault) : s.KeepsQueues (s.channelFault k fault) :=
  ((((s.endRun_queues k).trans (.modChan _ k _)).trans (State.faultOccurrence_queues _ _ _ _)).trans
    (State.handFault_queues _ k _)).trans (State.pendingCopy_queues _ k)

/-! ### Steps, term edges and window ends (R80, R85, R95, R134) -/

theorem State.afterForwardStep_queues (s : State) (k : Fin 6) (p : Int) : s.KeepsQueues (s.afterForwardStep k p) := by
  have fired : s.KeepsQueues (if (s.chan k).state = .running then s.fireMarks k p else s) :=
    .ite (fun _ => s.fireMarks_queues k p) fun _ => .refl s
  exact .ite (fun _ => .ite (fun _ => fired.trans (State.cycleEnd_queues _ k)) fun _ =>
    fired.trans (State.completeRun_queues _ k)) fun _ => fired

theorem State.countStep_queues (s : State) (k : Fin 6) (forward : Bool) : s.KeepsQueues (s.countStep k forward) :=
  .ite (fun _ => .modChan s k _) fun _ => .ite (fun _ => s.channelFault_queues k _) fun _ =>
    .ite (fun _ => (State.KeepsQueues.modChan s k _).trans (State.afterForwardStep_queues _ k _)) fun _ => .modChan s k _

theorem State.takeStep_queues (k : Fin 6) (gate : Bool) (s : State) (forward : Bool) :
    s.KeepsQueues (State.takeStep k gate s forward) := by
  refine .ite (fun _ => ?_) fun _ => .refl s
  cases (s.chan k).active.mode
  case off => exact .refl s
  case pace => exact .modChan s k _
  all_goals exact s.countStep_queues k forward

theorem State.takeSteps_queues (before after : FrontEnd) (s : State) (k : Fin 6) :
    s.KeepsQueues (State.takeSteps before after s k) := by
  unfold State.takeSteps
  refine .trans ?_ (.fold (State.takeStep_queues k _) _ _)
  exact .ite (fun _ => .modChan s k _) fun _ => .refl s

theorem State.reportState_queues (s : State) (k : Fin 6) (old : ChannelState) (cause : Nat) :
    s.KeepsQueues (s.reportState k old cause) :=
  (State.KeepsQueues.nextOrdinal s).trans (.offerIf _ _ _ (by simp [stateNotice]))

theorem State.enterQuenched_queues (s : State) (k : Fin 6) : s.KeepsQueues (s.enterQuenched k) :=
  (s.releaseLines_queues k).trans (.modChan _ k _)

theorem State.when_queues {f : State → State} (hf : ∀ s : State, s.KeepsQueues (f s)) (b : Bool) (s : State) :
    s.KeepsQueues (State.when b f s) := .ite (fun _ => hf s) fun _ => .refl s

theorem State.startEdge_queues (k : Fin 6) (s : State) : s.KeepsQueues (s.startEdge k) :=
  .ite (fun _ => (State.KeepsQueues.modChan s k _).trans (State.reportState_queues _ k _ _)) fun _ => .refl s

theorem State.quenchEdge_queues (k : Fin 6) (s : State) : s.KeepsQueues (s.quenchEdge k) :=
  .ite (fun _ => (s.enterQuenched_queues k).trans (State.reportState_queues _ k _ _)) fun _ => .refl s

theorem State.restartEdge_queues (k : Fin 6) (s : State) : s.KeepsQueues (s.restartEdge k) :=
  .ite (fun _ => (State.KeepsQueues.modChan s k _).trans (State.reportState_queues _ k _ _)) fun _ => .refl s

theorem State.resyncEdge_queues (k : Fin 6) (s : State) : s.KeepsQueues (s.resyncEdge k) :=
  .ite (fun _ => .modChan s k _) fun _ => .refl s

theorem State.captureEdge_queues (k : Fin 6) (s : State) : s.KeepsQueues (s.captureEdge k) :=
  .ite (fun _ => s.captureAttempt_queues k _ _) fun _ => .refl s

theorem State.evaluateChannel_queues (before : FrontEnd) (s : State) (k : Fin 6) :
    s.KeepsQueues (State.evaluateChannel before s k) := by
  unfold State.evaluateChannel
  have edge : ∀ {f : State → State}, (∀ u : State, u.KeepsQueues (f u)) → ∀ (b : Bool) (u : State), s.KeepsQueues u →
      s.KeepsQueues (u.when b f) := fun hf b u hu => hu.trans (State.when_queues hf b u)
  refine .ite (fun _ => .modChan s k _) fun _ => ?_
  exact edge (State.captureEdge_queues k) _ _ <| edge (State.resyncEdge_queues k) _ _ <|
    edge (State.restartEdge_queues k) _ _ <| edge (State.quenchEdge_queues k) _ _ <|
    edge (State.startEdge_queues k) _ _ <| .modChan s k _

theorem State.windowEnd_queues (s : State) (k : Fin 6) (length : WindowLength) : s.KeepsQueues (s.windowEnd k length) := by
  unfold State.windowEnd
  refine State.KeepsQueues.trans (.trans ?_ (State.pendingCopy_queues _ k)) ((((State.KeepsQueues.nextOrdinal _).trans
    (.modChan _ k _)).trans (.offerIf _ _ _ (by simp [rateSampleNotice]))).trans (.modChan _ k _))
  exact .ite (fun _ => (State.KeepsQueues.modChan s k _).trans (.fold (State.fireCrossing_queues _ _ k) _ _)) fun _ =>
    .modChan s k _

end Sys2Proof.Machine
end

section
/-! The rows of the Command Engine: the header and the body of each, and what every body keeps (R19, R22, R23, R189). -/

namespace Sys2Proof.Machine

/-! ### The rows that check a header -/

/-- The header and the body of a command row that checks one; none for every other row. -/
def engineCommand : Instr → Option (CommandForm × (Message → State → State × Reply))
  | .ping => some (pingForm, fun m t => (t, .done m.body))
  | .identify => some (identifyForm, fun _ t => answer State.identifyBody t)
  | .readStatus => some (readStatusForm, fun _ t => answer State.readStatusBody t)
  | .setInputs => some (setInputsForm, State.setInputs)
  | .readInputs => some (readInputsForm, fun _ t => answer State.readInputsBody t)
  | .stageMode => some (stageModeForm, fun m t => t.stage m.channelNumber (withModeWord (m.word 0)))
  | .stageTargets => some (stageTargetsForm, fun m t => t.stage m.channelNumber (withTargetsWords (m.word 0) (m.word 1)))
  | .stageTerms => some (stageTermsForm, fun m t => t.stage m.channelNumber (withTermsWords (m.word 0) (m.word 1)))
  | .stageGuard => some (stageGuardForm, fun m t => t.stage m.channelNumber (withGuardWords (m.word 0) (m.word 1)))
  | .commit => some (commitForm, State.commit)
  | .readConfig => some (readConfigForm, fun m t =>
      answer (fun u => (u.chan m.channelNumber).readConfigBody ((u.chan m.channelNumber).selectedSet m)) t)
  | .stageMark => some (stageMarkForm, fun m t =>
      t.stage m.channelNumber (withMarkWords (headModifier m.head).toNat (m.word 0) (m.word 1)))
  | .clearMarks => some (clearMarksForm, fun m t => t.stage m.channelNumber fun c => some { c with marks := [] })
  | .readMarks => some (readMarksForm, fun m t =>
      if (t.chan m.channelNumber).state = .lent then refuse .wrongState t
      else answer (fun u => (u.chan m.channelNumber).readMarksBody m) t)
  | .start => some (startForm, State.start)
  | .restart => some (restartForm, State.restart)
  | .quench => some (quenchForm, perChannel State.quenchLegal State.enterQuenched)
  | .halt => some (haltForm, perChannel State.haltLegal State.haltChannel)
  | .readChannel => some (readChannelForm, fun m t => answer (·.readChannelBody m.channelNumber) t)
  | .readCaptures => some (readCapturesForm, fun m t =>
      if (t.chan m.channelNumber).state = .lent then refuse .wrongState t
      else (t.modChan m.channelNumber Channel.takeCaptures, .done (t.chan m.channelNumber).readCapturesBody))
  | .readRate => some (readRateForm, fun m t =>
      if (t.chan m.channelNumber).state = .lent then refuse .wrongState t
      else answer (·.readRateBody m.channelNumber) t)
  | .bindLine => some (bindLineForm, State.bindLine)
  | .unbindLine => some (unbindLineForm, State.unbindLine)
  | .shapeLine => some (shapeLineForm, State.shapeLine)
  | .shapePair => some (shapePairForm, State.shapePair)
  | .driveLines => some (driveLinesForm, State.driveLines)
  | .readLines => some (readLinesForm, fun _ t => answer State.readLinesBody t)
  | .setTrip => some (setTripForm, State.setTrip)
  | .trip => some (tripForm, fun _ t =>
      (t.softTrip, .done [placeFlag 0 (t.trip.permit == .permitted) ||| place 4 t.softTrip.trip.permit.code]))
  | .resume => some (resumeForm, fun _ t => t.resume)
  | .readTrip => some (readTripForm, fun _ t => answer State.readTripBody t)
  | .readFaults => some (readFaultsForm, fun m t =>
      (t.withLedger { t.ledger with lost := false }, .done (t.ledger.readBody (headModifier m.head).toNat)))
  | .ackFault => some (ackFaultForm, fun _ t => t.ackFault)
  | .sealRaise => some (sealForm, fun m t => t.raiseSeal ((headModifier m.head).extractLsb' 0 2))
  | .engineReset => some (engineResetForm, fun _ t =>
      (t.engineReset, .done [placeNat 0 t.port.ciq.length, placeNat 0 t.out.rnq.length]))
  | _ => none

variable {c : Instr} {f : CommandForm} {body : Message → State → State × Reply}

theorem exec_engineCommand (h : engineCommand c = some (f, body)) (s : State) : exec c s = .next (s.command f body) := by
  cases c <;> cases h <;> rfl

theorem engineCommand_refusalBody (h : engineCommand c = some (f, body)) : f.refusalBody.length ≤ 7 := by
  cases c <;> cases h <;> decide

/-! ### What a body may do -/

/-- A body keeps the queues and replies with at most seven words to a message of at most seven (R19, R22). -/
def State.Answers (s : State) (m : Message) (r : State × Reply) : Prop :=
  s.KeepsQueues r.1 ∧ (m.whole → r.2.body.length ≤ 7)

variable {s t : State} {m : Message}

theorem State.Answers.mk (h : s.KeepsQueues t) (code : ResultCode) {l : List Word} (hl : l.length ≤ 7) :
    s.Answers m (t, ⟨code, l⟩) := ⟨h, fun _ => hl⟩

theorem State.Answers.refuse (code : ResultCode) (s : State) : s.Answers m (refuse code s) :=
  .mk (.refl s) code (Nat.zero_le 7)

theorem State.Answers.completed (h : s.KeepsQueues t) : s.Answers m (completed t) := .mk h .done (Nat.zero_le 7)

theorem State.Answers.answer {g : State → List Word} (hg : (g s).length ≤ 7) : s.Answers m (answer g s) :=
  .mk (.refl s) .done hg

theorem State.Answers.ite {c : Prop} [Decidable c] {x y : State × Reply} (hx : s.Answers m x) (hy : s.Answers m y) :
    s.Answers m (if c then x else y) := by
  split
  · exact hx
  · exact hy

/-- The words of up to three records of two words each. -/
theorem length_flatMap_take_three {α : Type} {g : α → List Word} (hg : ∀ a, (g a).length = 2) (l : List α) :
    ((l.take 3).flatMap g).length ≤ 6 := by
  simp only [List.length_flatMap, hg, List.map_const', List.sum_replicate, List.length_take, smul_eq_mul]
  omega

/-! ### Chapters 3 to 7 -/

theorem State.setInputs_answers (m : Message) (s : State) : s.Answers m (s.setInputs m) := by
  have settled : ∀ f, s.KeepsQueues (s.withInputs f) := fun f => .of_eq rfl rfl rfl
  exact .ite (.refuse _ s) (.completed ((settled _).trans (.fold (fun t k => .modChan t k _) _ _)))

theorem State.stage_answers (s : State) (k : Fin 6) (write : ChannelConfig → Option ChannelConfig) :
    s.Answers m (s.stage k write) := by
  refine .ite (.refuse _ s) ?_
  cases write (s.chan k).staged with
  | none => exact .refuse _ s
  | some c => exact .completed (.modChan s k _)

theorem State.immediateCopy_queues (s : State) (k : Fin 6) : s.KeepsQueues (s.immediateCopy k) := by
  have releases : ∀ (t : State) (p : Prop) [Decidable p], t.KeepsQueues (if p then t.releaseLines k else t) :=
    fun t _ _ => .ite (fun _ => t.releaseLines_queues k) fun _ => .refl t
  exact (((s.copyStaged_queues k).trans (.modChan _ k _)).trans (releases _ _)).trans (.modChan _ k _)

theorem State.haltedCopy_queues (s : State) (k : Fin 6) : s.KeepsQueues (s.haltedCopy k) :=
  (((s.endRun_queues k).trans (.modChan _ k _)).trans (State.copyStaged_queues _ k)).trans (.modChan _ k _)

theorem State.applyCommit_queues (s : State) (k : Fin 6) : s.KeepsQueues (s.applyCommit k) := by
  unfold State.applyCommit
  cases (s.chan k).disposition with
  | untouched => exact .refl s
  | copied => exact s.immediateCopy_queues k
  | halted => exact s.haltedCopy_queues k
  | left => exact .modChan s k _

theorem State.settlePartner_queues (s : State) (k : Fin 6) : s.KeepsQueues (s.settlePartner k) :=
  .ite (fun _ => .modChan s _ _) fun _ => .ite (fun _ => .modChan s _ _) fun _ => .refl s

/-- A refusal by the checks of COMMIT names its channel and mark in one word (R67). -/
theorem State.cohortFailure_length {s : State} {cohort : Word} {l : List (Fin 6)} {r : Reply}
    (h : s.cohortFailure cohort l = some r) : r.body.length = 1 := by
  induction l with
  | nil => cases h
  | cons k l ih =>
    unfold State.cohortFailure at h
    split at h
    · cases h; rfl
    · exact ih h

theorem State.commit_answers (m : Message) (s : State) : s.Answers m (s.commit m) := by
  refine .ite (.mk (.refl s) _ (by decide)) ?_
  split
  next r h => exact ⟨.refl s, fun _ => by simp [State.cohortFailure_length h]⟩
  next => exact ⟨(State.KeepsQueues.fold State.applyCommit_queues _ s).trans (.fold State.settlePartner_queues _ _),
    fun _ => by simp [Reply.done]⟩

theorem Channel.readConfigBody_length (c : Channel) (x : ChannelConfig) : (c.readConfigBody x).length ≤ 7 := by
  simp [Channel.readConfigBody, targetsWords, termsWords, guardWords]

theorem Channel.readMarksBody_length (c : Channel) (m : Message) : (c.readMarksBody m).length ≤ 7 :=
  Nat.succ_le_succ (length_flatMap_take_three (by exact fun _ => rfl) _)

theorem State.start_answers (m : Message) (s : State) : s.Answers m (s.start m) :=
  .ite (.refuse _ s) (.ite (.completed (.fold (fun t k => .modChan t k _) _ s)) (.mk (.refl s) _ (by simp)))

theorem State.restart_answers (m : Message) (s : State) : s.Answers m (s.restart m) :=
  .ite (.refuse _ s) (.ite (.completed (.fold (fun t k => .modChan t k _) _ s)) (.mk (.refl s) _ (by simp)))

theorem perChannel_answers {act : State → Fin 6 → State} (h : ∀ (s : State) (k : Fin 6), s.KeepsQueues (act s k))
    (legal : State → Fin 6 → Bool) (m : Message) (s : State) : s.Answers m (perChannel legal act m s) := by
  refine .ite (.refuse _ s) ⟨.fold h _ s, fun _ => ?_⟩
  split <;> simp [Reply.done]

theorem State.leaveFaulted_queues (s : State) (k : Fin 6) (fault : Option ChannelFault) :
    s.KeepsQueues (s.leaveFaulted k fault) := by
  cases fault with
  | none => exact .refl s
  | some f => exact .of_eq rfl rfl rfl

theorem State.haltChannel_queues (s : State) (k : Fin 6) : s.KeepsQueues (s.haltChannel k) :=
  (((s.endRun_queues k).trans (.modChan _ k _)).trans (State.leaveFaulted_queues _ k _)).trans (State.pendingCopy_queues _ k)

theorem Channel.readCapturesBody_length (c : Channel) : c.readCapturesBody.length ≤ 7 :=
  Nat.succ_le_succ (length_flatMap_take_three (by exact fun _ => rfl) _)

/-! ### Chapter 8 -/

theorem State.bindLine_answers (m : Message) (s : State) : s.Answers m (s.bindLine m) := by
  have owns : ∀ (n : Fin 12) (o : Owner), s.KeepsQueues (s.setOwner n o) := fun n o =>
    .ite (fun _ => .of_eq rfl rfl rfl) fun _ => .of_eq rfl rfl rfl
  unfold State.bindLine State.bindTo
  split
  · exact .ite (.ite (.refuse _ s) (.ite (.refuse _ s) (.ite (.refuse _ s) (.ite (.completed (.refl s))
      (.completed (owns _ _)))))) (.refuse _ s)
  · exact .refuse _ s

theorem State.unbindLine_answers (m : Message) (s : State) : s.Answers m (s.unbindLine m) := by
  have unbinds : ∀ n : Fin 12, s.KeepsQueues (s.unbind n) := fun n => by
    unfold State.unbind State.setOwner
    split <;> exact .of_eq rfl rfl rfl
  unfold State.unbindLine State.unbindFrom
  split
  · exact .ite (.ite (.refuse _ s) (.ite (.refuse _ s) (.ite (.refuse _ s) (.ite (.completed (.refl s))
      (.completed (unbinds _)))))) (.refuse _ s)
  · exact .refuse _ s

theorem State.shapeLine_answers (m : Message) (s : State) : s.Answers m (s.shapeLine m) := by
  unfold State.shapeLine State.shapeTo
  split
  · exact .ite (.ite (.refuse _ s) (.ite (.refuse _ s) (.completed (.of_eq rfl rfl rfl)))) (.refuse _ s)
  · exact .refuse _ s

theorem State.repair_queues (s : State) (j : Fin 6) (pairing : Bool) (gap : Byte) : s.KeepsQueues (s.repair j pairing gap) := by
  unfold State.repair State.pairUp
  split
  · exact .ite (fun _ => .of_eq rfl rfl rfl) fun _ => .of_eq rfl rfl rfl
  · exact .of_eq rfl rfl rfl
  · exact .of_eq rfl rfl rfl
  · exact .refl s

theorem State.shapePair_answers (m : Message) (s : State) : s.Answers m (s.shapePair m) := by
  unfold State.shapePair State.shapePairTo
  split
  · exact .ite (.ite (.refuse _ s) (.ite (.refuse _ s) (.ite (.refuse _ s) (.ite (.refuse _ s)
      (.completed (s.repair_queues _ _ _)))))) (.refuse _ s)
  · exact .refuse _ s

theorem State.driveLines_answers (m : Message) (s : State) : s.Answers m (s.driveLines m) :=
  .ite (.refuse _ s) (.completed (.of_matrix (s.driveLines_cases (m.word 0)).1))

/-! ### Chapters 9 and 10 -/

theorem State.setTrip_answers (m : Message) (s : State) : s.Answers m (s.setTrip m) := by
  unfold State.setTrip
  split
  · exact .ite (.mk (.refl s) _ (by simp)) (.completed (.of_eq rfl rfl rfl))
  · exact .refuse _ s

theorem State.softTrip_queues (s : State) : s.KeepsQueues s.softTrip :=
  (s.faultOccurrence_queues _ _ _).trans (State.withdrawIf_queues _ _ _)

theorem State.resume_answers (s : State) : s.Answers m s.resume :=
  .ite (.refuse _ s) (.ite (.mk (.refl s) _ (by simp)) (.completed (s.grant_queues none)))

theorem Ledger.readBody_length (l : Ledger) (f : Nat) : (l.readBody f).length ≤ 7 := by
  simp only [Ledger.readBody, List.length_cons, List.length_map, List.length_take]
  omega

theorem State.ackFault_answers (s : State) : s.Answers m s.ackFault :=
  .ite (.refuse _ s) ⟨.of_eq rfl rfl rfl, fun _ => by simp [Reply.done]⟩

theorem State.raiseSeal_answers (s : State) (level : BitVec 2) : s.Answers m (s.raiseSeal level) :=
  .ite (.refuse _ s) ⟨.of_eq rfl rfl rfl, fun _ => by simp [Reply.done]⟩

theorem State.resetChannels_queues (s : State) : s.KeepsQueues s.resetChannels := by
  have stands : ∀ (t : State) (k : Fin 6), t.KeepsQueues (t.standChannel k) := fun t k => .of_eq rfl rfl rfl
  have handed : ∀ x : TripUnit, s.KeepsQueues (s.withTrip x) := fun x => .of_eq rfl rfl rfl
  have fresh : ∀ (t : State) (x : Vector Channel 6), t.KeepsQueues (t.withChannels x) := fun t x => .of_eq rfl rfl rfl
  have refilters : ∀ t : State, t.KeepsQueues (State.refilter s t) := fun t => by
    have h := (State.refilter_cases s t 0).2
    exact .of_eq (by rw [h]) (by rw [h]) (by rw [h])
  exact (((handed _).trans (.fold stands _ _)).trans (fresh _ _)).trans (refilters _)

/-- Step 6 of ENGINE_RESET empties the queues and leaves an assembly and the reserved slot (R189). -/
theorem State.emptyQueues_queues (s : State) :
    s.KeepsQueues ((s.withPort s.port.engineReset).withOut { s.out with rnq := [] }) := by
  have reservation : s.port.reservation ≤ 8 := by unfold HostPort.reservation; split <;> decide
  refine ⟨rfl, rfl, fun ⟨⟨_, _, hassembly⟩, _, _⟩ => ⟨⟨?_, by simp [HostPort.engineReset], hassembly⟩, ⟨?_, ?_, by simp⟩, ?_⟩⟩
  · show 0 + s.port.reservation ≤ 8
    omega
  · show 0 + (if s.out.reserved then 1 else 0) ≤ 32
    cases s.out.reserved <;> decide
  · simp [Outbox.noticeCount]
  · simp [HostPort.engineReset]

theorem State.engineReset_queues (s : State) : s.KeepsQueues s.engineReset := by
  have tables : ∀ (t : State) (x : LineMatrix), t.KeepsQueues (t.withMatrix x) := fun t x => .of_eq rfl rfl rfl
  have dins : ∀ (t : State) (x : FrontEnd), t.KeepsQueues (t.withInputs x) := fun t x => .of_eq rfl rfl rfl
  have trips : ∀ (t : State) (x : TripUnit), t.KeepsQueues (t.withTrip x) := fun t x => .of_eq rfl rfl rfl
  exact ((((s.resetChannels_queues.trans (tables _ _)).trans (dins _ _)).trans (trips _ _)).trans
    (State.setCondition_queues _ _ _ _)).trans (State.emptyQueues_queues _)

/-! ### Every command row -/

/-- The body of every command row keeps the queues and replies within seven words. -/
theorem engineCommand_answers (h : engineCommand c = some (f, body)) (m : Message) (s : State) : s.Answers m (body m s) := by
  cases c <;> cases h
  case ping => exact ⟨.refl s, Message.whole_length⟩
  case identify => exact .answer (by simp [State.identifyBody])
  case readStatus => exact .answer (by simp [State.readStatusBody])
  case setInputs => exact s.setInputs_answers m
  case readInputs => exact .answer (by simp [State.readInputsBody])
  case stageMode | stageTargets | stageTerms | stageGuard | stageMark | clearMarks => exact s.stage_answers _ _
  case commit => exact s.commit_answers m
  case readConfig => exact .answer (Channel.readConfigBody_length _ _)
  case readMarks => exact .ite (.refuse _ s) (.answer (Channel.readMarksBody_length _ m))
  case start => exact s.start_answers m
  case restart => exact s.restart_answers m
  case quench => exact perChannel_answers State.enterQuenched_queues _ m s
  case halt => exact perChannel_answers State.haltChannel_queues _ m s
  case readChannel => exact .answer (by simp [State.readChannelBody])
  case readCaptures => exact .ite (.refuse _ s) (.mk (.modChan s _ _) _ (Channel.readCapturesBody_length _))
  case readRate => exact .ite (.refuse _ s) (.answer (by simp [State.readRateBody]))
  case bindLine => exact s.bindLine_answers m
  case unbindLine => exact s.unbindLine_answers m
  case shapeLine => exact s.shapeLine_answers m
  case shapePair => exact s.shapePair_answers m
  case driveLines => exact s.driveLines_answers m
  case readLines => exact .answer (by simp [State.readLinesBody])
  case setTrip => exact s.setTrip_answers m
  case trip => exact .mk s.softTrip_queues _ (by simp)
  case resume => exact s.resume_answers
  case readTrip => exact .answer (by simp [State.readTripBody])
  case readFaults => exact .mk (.withLedger s _) _ (Ledger.readBody_length _ _)
  case ackFault => exact s.ackFault_answers
  case sealRaise => exact s.raiseSeal_answers _
  case engineReset => exact .mk s.engineReset_queues _ (by simp)

/-! ### A step of the Command Engine -/

/-- With a message taken, a CIQ slot is free, an RNQ slot reserved, and the queues hold (R23). -/
theorem State.takeMessage_queuesHold {rest : List Message} (ht : s.takes m rest) (h : s.QueuesHold) :
    (s.takeMessage rest).QueuesHold ∧ m.whole := by
  obtain ⟨⟨hroom, hwhole, hassembly⟩, hout, hpop⟩ := h
  obtain ⟨hout', hlen⟩ := State.takeMessage_holds ht hout
  rw [ht.1] at hwhole
  refine ⟨⟨⟨?_, fun x hx => hwhole x (List.mem_cons_of_mem m hx), hassembly⟩, hout', hpop⟩, hwhole m List.mem_cons_self⟩
  show (s.takeMessage rest).port.ciq.length + s.port.reservation ≤ ciqSlots
  omega

/-- A reply takes the reserved slot, and the step is over (R23). -/
theorem State.admitReply_queuesWf {r : Reply} (hr : r.body.length ≤ 7) (hs : s.out.reserved = true) (h : s.QueuesHold) :
    (s.admitReply m r).queuesWf :=
  (State.queuesWf_iff _).mpr ⟨⟨h.1, State.admitReply_holds hr hs h.2.1, h.2.2⟩, rfl⟩

theorem State.execute_queuesWf {rest : List Message} (hf : f.refusalBody.length ≤ 7)
    (hb : ∀ m s, State.Answers s m (body m s)) (ht : s.takes m rest) (h : s.QueuesHold) :
    (s.execute f body m rest).queuesWf := by
  obtain ⟨htaken, hm⟩ := State.takeMessage_queuesHold ht h
  obtain ⟨hkeeps, hreply⟩ := hb m (s.takeMessage rest)
  unfold State.execute
  simp only
  split
  · exact State.admitReply_queuesWf hf rfl htaken
  · exact State.admitReply_queuesWf (hreply hm) hkeeps.reserved (hkeeps.queues htaken)

theorem State.command_queuesWf (hf : f.refusalBody.length ≤ 7) (hb : ∀ m s, State.Answers s m (body m s))
    (h : s.queuesWf) : (s.command f body).queuesWf := by
  obtain hsame | ⟨m, rest, ht, -, hstep⟩ := s.command_cases f body
  · rw [hsame]; exact h
  · rw [hstep]; exact State.execute_queuesWf hf hb ht ((s.queuesWf_iff).mp h).1

theorem State.command_power (hb : ∀ m s, State.Answers s m (body m s)) (s : State) : (s.command f body).power = s.power := by
  obtain hsame | ⟨m, rest, -, -, hstep⟩ := s.command_cases f body
  · rw [hsame]
  · rw [hstep]
    unfold State.execute
    simp only
    split
    · rfl
    · exact (hb m (s.takeMessage rest)).1.power

theorem execUnknownKind_queuesWf (h : s.queuesWf) (he : execUnknownKind s = .next t) : t.queuesWf ∧ t.power = s.power := by
  cases he
  split
  next m rest hm =>
    split
    · exact ⟨h, rfl⟩
    · obtain ⟨htaken, -⟩ := State.takeMessage_queuesHold (State.takes_of_nextMessage hm) ((s.queuesWf_iff).mp h).1
      exact ⟨State.admitReply_queuesWf (Nat.zero_le 7) rfl htaken, rfl⟩
  next => exact ⟨h, rfl⟩

end Sys2Proof.Machine
end

section
/-! What every row of the table, and the part by itself, keeps of the queues and of the supply; every step keeps the
queues within their capacities. -/

namespace Sys2Proof.Machine

variable {s t : State}

/-! ### Word slots and transactions (R4 to R16) -/

/-- A change of latches, counters, flags, MISO or the transaction leaves the port's queues. -/
theorem State.modPort_queues (s : State) (g : HostPort → HostPort)
    (hg : ∀ p, (g p).ciq = p.ciq ∧ (g p).assembly = p.assembly ∧ (g p).popBuffer = p.popBuffer) :
    s.KeepsQueues (s.modPort g) := by
  obtain ⟨hciq, hassembly, hpop⟩ := hg s.port
  refine .of_port rfl rfl (fun h => ?_) (le_of_eq (congrArg List.length hpop))
  unfold HostPort.inboundWf HostPort.reservation at *
  simp only [State.modPort, State.withPort_port, hciq, hassembly]
  exact h

theorem State.carry_queues (s : State) (w : Word) : s.KeepsQueues (s.carry w) :=
  s.modPort_queues _ fun _ => ⟨rfl, rfl, rfl⟩

theorem State.withTransaction_queues (s : State) (t : Transaction) : s.KeepsQueues (s.withTransaction t) :=
  s.modPort_queues _ fun _ => ⟨rfl, rfl, rfl⟩

theorem State.writeSlot_queues {act : Transaction → State → State} (h : ∀ (t : Transaction) (s : State), s.KeepsQueues (act t s))
    (s : State) (index : BitVec 7) : s.KeepsQueues (s.writeSlot index act) := by
  unfold State.writeSlot
  split
  · exact .ite (fun _ => .ite (fun _ => (s.carry_queues _).trans (h _ _)) fun _ => s.carry_queues _) fun _ => .refl s
  · exact .refl s

theorem State.firstWord_queues {act : State → State} (h : ∀ s : State, s.KeepsQueues (act s)) (t : Transaction) (s : State) :
    s.KeepsQueues (State.firstWord act t s) :=
  .ite (fun _ => (s.withTransaction_queues _).trans (h _)) fun _ => s.withTransaction_queues _

theorem State.bitSlot_queues {act : State → State} (h : ∀ s : State, s.KeepsQueues (act s)) (s : State) (index : BitVec 7)
    (w : Word) (b : Nat) : s.KeepsQueues (s.bitSlot index w b act) := by
  refine .ite (fun _ => State.writeSlot_queues (fun t s => ?_) s index) fun _ => .refl s
  unfold State.firstWordBit
  split
  · exact .ite (fun _ => (s.withTransaction_queues _).trans (h _)) fun _ => s.withTransaction_queues _
  · exact s.withTransaction_queues _

/-- The end of a read slot keeps the queues when what the register does at its end keeps them. -/
theorem State.readSlot_queues {finish : State → SlotOutcome → State}
    (h : ∀ (s : State) (o : SlotOutcome), s.KeepsQueues (finish s o)) (s : State) (index : BitVec 7) (phase : SlotPhase)
    (decide : Transaction → State → Slot) : s.KeepsQueues (s.readSlot index phase decide finish) := by
  unfold State.readSlot
  split
  · refine .ite (fun _ => ?_) fun _ => .refl s
    simp only
    split
    · exact s.withTransaction_queues _
    · exact .refl s
    · exact ((s.withTransaction_queues _).trans (State.carry_queues _ _)).trans (h _ _)
  · exact .refl s

/-! ### Inbound (R8, R9, R10) -/

/-- A message that holds at most its declared words is committed, or its assembly reserves a slot that is free. -/
theorem State.assemble_queuesHold {m : Message} (h : s.QueuesHold) (hroom : s.port.ciq.length < ciqSlots)
    (hm : m.body.length ≤ (headLength m.head).toNat) : (s.assemble m).QueuesHold := by
  obtain ⟨⟨_, hwhole, _⟩, hout, hpop⟩ := h
  unfold State.assemble
  split
  next hlast =>
    rw [State.commitMessage_eq]
    refine ⟨⟨?_, fun x hx => ?_, by simp [State.committed]⟩, hout, hpop⟩
    · simpa [State.committed, HostPort.reservation] using Nat.succ_le_of_lt hroom
    · rcases List.mem_append.mp hx with hx | hx
      · exact hwhole x hx
      · rw [List.mem_singleton.mp hx]; exact hlast
  next hmore =>
    refine ⟨⟨?_, hwhole, fun a ha => ?_⟩, hout, hpop⟩
    · exact Nat.succ_le_of_lt hroom
    · obtain rfl : m = a := by simpa [State.modPort] using ha
      omega

theorem State.assemble_frame (s : State) (m : Message) : (s.assemble m).power = s.power ∧ (s.assemble m).out = s.out := by
  unfold State.assemble
  split
  · rw [State.commitMessage_eq]; exact ⟨rfl, rfl⟩
  · exact ⟨rfl, rfl⟩

theorem State.framingError_queues (s : State) : s.KeepsQueues (s.modPort HostPort.framingError) :=
  s.modPort_queues _ fun _ => ⟨rfl, rfl, rfl⟩

theorem State.pushHead_queues (w : Word) (s : State) : s.KeepsQueues (s.pushHead w) := by
  refine .ite (fun _ => .of_port rfl rfl id le_rfl) fun hroom => ?_
  have opened : s.KeepsQueues (if s.port.assembly.isSome then s.modPort HostPort.framingError else s) :=
    .ite (fun _ => s.framingError_queues) fun _ => .refl s
  have hciq : (if s.port.assembly.isSome then s.modPort HostPort.framingError else s).port.ciq = s.port.ciq := by
    split <;> rfl
  refine opened.trans ⟨(State.assemble_frame _ _).1, by rw [(State.assemble_frame _ _).2], fun h =>
    State.assemble_queuesHold h ?_ (Nat.zero_le _)⟩
  rw [hciq]; omega

theorem State.pushBody_queues (w : Word) (s : State) : s.KeepsQueues (s.pushBody w) := by
  unfold State.pushBody
  cases ha : s.port.assembly with
  | none => exact s.framingError_queues
  | some a =>
    refine ⟨(s.assemble_frame _).1, by rw [(s.assemble_frame _).2], fun h => State.assemble_queuesHold h ?_ ?_⟩
    · have hroom := h.1.1
      simp only [HostPort.reservation, ha, Option.isSome_some, if_true] at hroom
      omega
    · rw [List.length_append]
      exact h.1.2.2 a ha

/-! ### Outbound (R12, R13, R14) -/

/-- A POP_HEAD moves a whole message from the RNQ to the pop buffer (R12). -/
theorem State.finishPopHead_queues (s : State) (o : SlotOutcome) : s.KeepsQueues (s.finishPopHead o) := by
  cases o with
  | void => exact .refl s
  | refuses => exact .of_port rfl rfl id (Nat.zero_le _)
  | hands =>
    unfold State.finishPopHead
    cases hq : s.out.rnq with
    | nil => exact .refl s
    | cons m rest =>
      refine ⟨rfl, rfl, fun ⟨hin, ⟨hlen, hnotices, hwhole⟩, _⟩ => ⟨hin, ⟨?_, ?_, fun x hx => ?_⟩, ?_⟩⟩
      · rw [hq, List.length_cons] at hlen
        show rest.length + (if s.out.reserved then 1 else 0) ≤ 32
        omega
      · have htail : (rest.filter isNotice).length ≤ (s.out.rnq.filter isNotice).length :=
          ((hq ▸ List.sublist_cons_self m rest).filter _).length_le
        exact htail.trans hnotices
      · exact hwhole x (by rw [hq]; exact List.mem_cons_of_mem m hx)
      · exact Message.whole_length (hwhole m (by rw [hq]; exact List.mem_cons_self))

theorem State.finishPopBody_queues (s : State) (o : SlotOutcome) : s.KeepsQueues (s.finishPopBody o) := by
  cases o with
  | void => exact .refl s
  | refuses => exact .of_port rfl rfl id le_rfl
  | hands => exact .of_port rfl rfl id (by simp [State.finishPopBody, State.modPort])

theorem State.finishLinkCounts_queues (s : State) (o : SlotOutcome) : s.KeepsQueues (s.finishLinkCounts o) := by
  cases o <;> exact .of_port rfl rfl id le_rfl

/-! ### Flushes and the ends of a transaction (R1, R3, R16) -/

theorem State.discardAssembly_queues (s : State) : s.KeepsQueues (s.modPort ({ · with assembly := none })) :=
  .of_port rfl rfl (fun ⟨hroom, hwhole, _⟩ => ⟨(Nat.add_le_add_left (Nat.zero_le _) _).trans hroom, hwhole, by simp [State.modPort]⟩)
    le_rfl

theorem State.discardCiq_queues (s : State) : s.KeepsQueues (s.modPort ({ · with ciq := [] })) :=
  .of_port rfl rfl (fun ⟨hroom, _, hassembly⟩ =>
    ⟨(Nat.add_le_add_right (Nat.zero_le _) _).trans hroom, by simp [State.modPort], hassembly⟩) le_rfl

theorem State.discardRnq_queues (s : State) :
    s.KeepsQueues ((s.modPort ({ · with popBuffer := [] })).withOut { s.out with rnq := [] }) := by
  refine ⟨rfl, rfl, fun ⟨hin, ⟨hlen, _, _⟩, _⟩ => ⟨hin, ⟨?_, Nat.zero_le _, by simp⟩, Nat.zero_le _⟩⟩
  exact (Nat.add_le_add_right (Nat.zero_le _) _).trans hlen

theorem execTransactionStart_queues (command : Option Byte) (s : State) :
    ∃ t, execTransactionStart command s = .next t ∧ s.KeepsQueues t := by
  refine ⟨_, rfl, ?_⟩
  split
  · exact .refl s
  · exact .of_port rfl rfl id le_rfl

theorem execTransactionEnd_queues (s : State) : ∃ t, execTransactionEnd s = .next t ∧ s.KeepsQueues t := by
  refine ⟨_, rfl, ?_⟩
  split
  next t _ =>
    refine s.modPort_queues _ fun p => ?_
    unfold HostPort.latchRefused
    split <;> exact ⟨rfl, rfl, rfl⟩
  next => exact .refl s

/-! ### The occurrences of an instant (R32) -/

theorem State.withSafety_queues (s : State) (x : SafetyInputs) : s.KeepsQueues (s.withSafety x) := .of_eq rfl rfl rfl

theorem execTripInAssert_queues (s : State) : ∃ t, execTripInAssert s = .next t ∧ s.KeepsQueues t :=
  ⟨_, rfl, .ite (fun _ => (s.withSafety_queues _).trans (State.causeAsserts_queues _ _ _ _ _ _)) fun _ => .refl s⟩

theorem execOverloadAssert_queues (b : Fin 3) (s : State) : ∃ t, execOverloadAssert b s = .next t ∧ s.KeepsQueues t := by
  have shuts : ∀ t : State, t.KeepsQueues (t.setShut b true) := fun t => .of_eq rfl rfl rfl
  exact ⟨_, rfl, .ite (fun _ => ((s.withSafety_queues _).trans (shuts _)).trans (State.causeAsserts_queues _ _ _ _ _ _))
    fun _ => .refl s⟩

theorem execSupplyLoss_queues (s : State) : ∃ t, execSupplyLoss s = .next t ∧ s.KeepsQueues t :=
  ⟨_, rfl, .ite (fun _ => (s.withSafety_queues _).trans (State.causeAsserts_queues _ _ _ _ _ _)) fun _ => .refl s⟩

theorem execWatchExpiry_queues (s : State) : ∃ t, execWatchExpiry s = .next t ∧ s.KeepsQueues t := by
  have expires : ∀ x : TripUnit, s.KeepsQueues (s.withTrip x) := fun x => .of_eq rfl rfl rfl
  exact ⟨_, rfl, .ite (fun _ => (expires _).trans (State.causeAsserts_queues _ _ _ _ _ _)) fun _ => .refl s⟩

theorem execCountFilterAccept_queues (pins : BitVec 12) (s : State) :
    ∃ t, execCountFilterAccept pins s = .next t ∧ s.KeepsQueues t := by
  have accepts : ∀ f : FrontEnd, s.KeepsQueues (s.withInputs f) := fun f => .of_eq rfl rfl rfl
  exact ⟨_, rfl, (accepts _).trans (.fold (State.takeSteps_queues _ _) _ _)⟩

theorem execDinFilterAccept_queues (pins : BitVec 8) (s : State) :
    ∃ t, execDinFilterAccept pins s = .next t ∧ s.KeepsQueues t := by
  have accepts : ∀ f : FrontEnd, s.KeepsQueues (s.withInputs f) := fun f => .of_eq rfl rfl rfl
  exact ⟨_, rfl, .ite (fun _ => (accepts _).trans (.fold (State.evaluateChannel_queues _) _ _)) fun _ => .refl s⟩

theorem execWindowEnd_queues (k : Fin 6) (s : State) : ∃ t, execWindowEnd k s = .next t ∧ s.KeepsQueues t := by
  refine ⟨_, rfl, ?_⟩
  split
  · exact s.windowEnd_queues k _
  · exact .refl s

theorem execSafetyInputChange_queues (pin : SafetyPin) (level : Bool) (s : State) :
    ∃ t, execSafetyInputChange pin level s = .next t ∧ s.KeepsQueues t := by
  refine ⟨_, rfl, ?_⟩
  cases pin <;> exact s.withSafety_queues _

/-! ### Every row -/

/-- The rows that change the supply, the reset, or ready (R6, R187). -/
def Instr.isPowerRow : Instr → Bool
  | .powerOnReset | .rstnReset | .initialisationComplete | .rstnRelease | .vddLoss => true
  | _ => false

/-- The rows of the Host Port, of the pins and of an instant keep the queues. -/
theorem exec_keepsQueues {c : Instr} (hc : engineCommand c = none) (hu : c ≠ .unknownKind) (hp : Instr.isPowerRow c = false)
    (s : State) : ∃ t, exec c s = .next t ∧ s.KeepsQueues t := by
  cases c
  case powerOnReset | rstnReset | initialisationComplete | rstnRelease | vddLoss => cases hp
  case unknownKind => exact absurd rfl hu
  case pushHead w => exact ⟨_, rfl, s.writeSlot_queues (fun _ => State.pushHead_queues w) _⟩
  case pushBody w => exact ⟨_, rfl, s.writeSlot_queues (fun _ => State.pushBody_queues w) _⟩
  case popHead p => exact ⟨_, rfl, State.readSlot_queues State.finishPopHead_queues s _ p _⟩
  case popBody p => exact ⟨_, rfl, State.readSlot_queues State.finishPopBody_queues s _ p _⟩
  case linkCountsRead p => exact ⟨_, rfl, State.readSlot_queues State.finishLinkCounts_queues s _ p _⟩
  case discardAssembly w => exact ⟨_, rfl, State.bitSlot_queues State.discardAssembly_queues s _ w _⟩
  case discardCiq w => exact ⟨_, rfl, State.bitSlot_queues State.discardCiq_queues s _ w _⟩
  case discardRnq w => exact ⟨_, rfl, State.bitSlot_queues State.discardRnq_queues s _ w _⟩
  case clearFramingSticky w | clearNoticeLostSticky w =>
    exact ⟨_, rfl,
      State.bitSlot_queues (fun t => t.modPort_queues _ (by exact fun _ => ⟨rfl, rfl, rfl⟩)) s _ w _⟩
  case attnMaskWrite w =>
    exact ⟨_, rfl,
      s.writeSlot_queues (State.firstWord_queues fun t => t.modPort_queues _ (by exact fun _ => ⟨rfl, rfl, rfl⟩)) _⟩
  case ignoredRegisterWrite i w =>
    exact ⟨_, rfl, .ite (fun _ => s.writeSlot_queues (State.firstWord_queues .refl) i) fun _ => .refl s⟩
  case transactionStart b => exact execTransactionStart_queues b s
  case transactionEnd => exact execTransactionEnd_queues s
  case countInputChange | dinChange => exact ⟨_, rfl, .of_eq rfl rfl rfl⟩
  case safetyInputChange p l => exact execSafetyInputChange_queues p l s
  case tripInAssert => exact execTripInAssert_queues s
  case overloadAssert b => exact execOverloadAssert_queues b s
  case supplyLoss => exact execSupplyLoss_queues s
  case tripInRelease | overloadRelease | supplyReturn | gapEnd =>
    exact ⟨_, rfl, .ite (fun _ => .of_eq rfl rfl rfl) fun _ => .refl s⟩
  case pulseEnd n => exact ⟨_, rfl, .ite (fun _ => s.setLogical_queues n _ _) fun _ => .refl s⟩
  case stallExpiry k => exact ⟨_, rfl, .ite (fun _ => s.channelFault_queues k _) fun _ => .refl s⟩
  case watchExpiry => exact execWatchExpiry_queues s
  case windowEnd k => exact execWindowEnd_queues k s
  case countFilterAccept pins => exact execCountFilterAccept_queues pins s
  case dinFilterAccept pins => exact execDinFilterAccept_queues pins s
  all_goals cases hc

/-- A row is a row of the Command Engine, a row of power and reset, or it keeps the queues. -/
theorem exec_cases (c : Instr) (s : State) :
    (∃ f body, engineCommand c = some (f, body)) ∨ c = .unknownKind ∨ Instr.isPowerRow c = true
      ∨ ∃ t, exec c s = .next t ∧ s.KeepsQueues t := by
  cases hc : engineCommand c with
  | some x => exact .inl ⟨x.1, x.2, rfl⟩
  | none =>
    by_cases hu : c = .unknownKind
    · exact .inr (.inl hu)
    · cases hp : Instr.isPowerRow c with
      | true => exact .inr (.inr (.inl rfl))
      | false => exact .inr (.inr (.inr (exec_keepsQueues hc hu hp s)))

/-- What the part does by itself leaves the queues (R23, R32). -/
theorem State.goOn_queues (s : State) : s.KeepsQueues s.goOn := by
  have ended : s.KeepsQueues s.endInstant := .of_eq rfl rfl rfl
  have waits : ∀ (t : State) (q : List Instr), t.KeepsQueues (t.withPending q) := fun t q => .of_eq rfl rfl rfl
  have passes : ∀ t : State, t.KeepsQueues t.passTime := fun t => by
    unfold State.passTime
    split
    · exact .of_eq rfl rfl rfl
    · exact .refl t
  exact ended.trans (.ite (fun _ => waits _ _) fun _ => .ite (fun _ => waits _ _) fun _ => passes _)

/-- A step runs the front command on the state with the rest of the queue, or the part goes on by itself. -/
theorem step_cases (h : step s = .next t) :
    (∃ c rest, s.pending = c :: rest ∧ exec c (s.withPending rest) = .next t) ∨ (s.pending = [] ∧ t = s.goOn) := by
  unfold step at h
  split at h
  next c rest hq => exact .inl ⟨c, rest, hq, h⟩
  next hq => exact .inr ⟨hq, by cases h; rfl⟩

/-! ### O55 -/

theorem State.powerOnValues_queuesWf (s : State) (p : Power) : (s.powerOnValues p).queuesWf := by
  refine ⟨⟨Nat.zero_le _, ?_, ?_⟩, Nat.zero_le _, Nat.zero_le _, rfl, ?_, Nat.zero_le _⟩ <;>
    simp [State.powerOnValues, HostPort.reset, State.reset, Outbox.reset]

theorem exec_powerRow_queuesWf {c : Instr} (hc : Instr.isPowerRow c = true) (h : s.queuesWf) (he : exec c s = .next t) :
    t.queuesWf := by
  cases c <;> cases hc <;> cases he
  case powerOnReset | rstnReset | vddLoss => exact s.powerOnValues_queuesWf _
  case rstnRelease => exact h
  case initialisationComplete => split <;> exact h

theorem exec_queuesWf {c : Instr} (h : s.queuesWf) (he : exec c s = .next t) : t.queuesWf := by
  obtain ⟨f, body, hc⟩ | rfl | hc | ⟨u, hu, hkeeps⟩ := exec_cases c s
  · rw [exec_engineCommand hc] at he
    cases he
    exact State.command_queuesWf (engineCommand_refusalBody hc) (engineCommand_answers hc) h
  · exact (execUnknownKind_queuesWf h he).1
  · exact exec_powerRow_queuesWf hc h he
  · obtain rfl : u = t := by rw [hu] at he; cases he; rfl
    obtain ⟨hold, hres⟩ := s.queuesWf_iff.mp h
    exact u.queuesWf_iff.mpr ⟨hkeeps.queues hold, hkeeps.reserved.trans hres⟩

/-- Settles O55: each row of the table and each step of the part by itself keeps the queues. -/
theorem queuesStayWithinCapacity : Obligations.QueuesStayWithinCapacity := by
  intro s t h hstep
  obtain ⟨c, rest, -, he⟩ | ⟨-, rfl⟩ := step_cases hstep
  · exact exec_queuesWf (s := s.withPending rest) h he
  · obtain ⟨hold, hres⟩ := s.queuesWf_iff.mp h
    exact s.goOn.queuesWf_iff.mpr ⟨s.goOn_queues.queues hold, s.goOn_queues.reserved.trans hres⟩

end Sys2Proof.Machine
end

section
/-! Word slots of the Host Port: the doorways (R8, R9, R12, R13), the flushes (R16), and a transaction that is not
active, in which no slot acts (R6). -/

namespace Sys2Proof.Machine

variable {s : State} {t : Transaction}

/-! ### The acting bits of a word (R16, R193) -/

theorem filter_cons_append {α : Type} (test : α → Bool) (a : α) (l : List α) :
    (a :: l).filter test = (if test a then [a] else []) ++ l.filter test := by
  cases h : test a <;> simp [h]

theorem partsOf_linkCtrl (w : Word) : partsOf 0x05#7 w =
    (if w.getLsbD 0 then [0] else []) ++ (if w.getLsbD 1 then [1] else []) ++ (if w.getLsbD 2 then [2] else []) := by
  show [0, 1, 2].filter (w.getLsbD ·) = _
  simp only [filter_cons_append, List.filter_nil, List.append_nil, List.append_assoc]

theorem partsOf_status (w : Word) : partsOf 0x01#7 w =
    (if w.getLsbD 16 then [16] else []) ++ (if w.getLsbD 17 then [17] else []) := by
  show [16, 17].filter (w.getLsbD ·) = _
  simp only [filter_cons_append, List.filter_nil, List.append_nil]

/-- No bit of any other register acts. -/
theorem partsOf_other {index : BitVec 7} (h5 : index ≠ 0x05#7) (h1 : index ≠ 0x01#7) (w : Word) : partsOf index w = [] := by
  simp [partsOf, actingBits, indexLinkCtrl, indexStatus, h5, h1]

/-- A field of a word is 0 when none of its bits is set. -/
theorem filter_bits_eq_nil_iff (w : Word) (lo n : Nat) :
    (List.range' lo n).filter (w.getLsbD ·) = [] ↔ w.extractLsb' lo n = 0#n := by
  simp only [List.filter_eq_nil_iff, List.mem_range'_1, Bool.not_eq_true]
  constructor
  · intro h
    apply BitVec.eq_of_getLsbD_eq
    intro i hi
    simp only [BitVec.getLsbD_extractLsb', BitVec.getLsbD_zero, hi, decide_true, Bool.true_and]
    exact h (lo + i) ⟨Nat.le_add_right lo i, Nat.add_lt_add_left hi lo⟩
  · rintro h i ⟨hlo, hi⟩
    have hbit := congrArg (·.getLsbD (i - lo)) h
    simpa only [BitVec.getLsbD_extractLsb', BitVec.getLsbD_zero, show i - lo < n by omega, decide_true, Bool.true_and,
      Nat.add_sub_cancel' hlo] using hbit

/-- The written words that no register takes (R4, R191). -/
theorem isIgnoredWrite_iff (index : BitVec 7) (w : Word) : isIgnoredWrite index w = true ↔
    index ≠ 0x06#7 ∧ index ≠ 0x08#7 ∧ index ≠ 0x09#7 ∧ (index = 0x05#7 → w.extractLsb' 0 3 = 0#3)
      ∧ (index = 0x01#7 → w.extractLsb' 16 2 = 0#2) := by
  have parts : partsOf index w = [] ↔
      (index = 0x05#7 → w.extractLsb' 0 3 = 0#3) ∧ (index = 0x01#7 → w.extractLsb' 16 2 = 0#2) := by
    by_cases h5 : index = 0x05#7
    · subst h5
      have h := filter_bits_eq_nil_iff w 0 3
      simp only [true_imp_iff, show (0x05#7 = 0x01#7) = False by decide, false_imp_iff, and_true]
      exact h
    · by_cases h1 : index = 0x01#7
      · subst h1
        have h := filter_bits_eq_nil_iff w 16 2
        simp only [true_imp_iff, show (0x01#7 = 0x05#7) = False by decide, false_imp_iff, true_and]
        exact h
      · simp [partsOf_other h5 h1, h5, h1]
  simp only [isIgnoredWrite, Bool.and_eq_true, bne_iff_ne, List.isEmpty_iff, parts, indexAttnMask, indexPushHead,
    indexPushBody, and_assoc]

/-! ### A transaction that is not active (R6) -/

/-- From s to v a row has changed nothing but MISO and the progress of transaction t, which stays inert: at the end of
a word slot MISO carries 0, and at any other row it is as it was. -/
def State.SlotIgnored (s : State) (t : Transaction) (ends : Prop) (v : State) : Prop :=
  ∃ u m, v = { s with port := { s.port with transaction := some u, miso := m } }
    ∧ (ends → m = .word 0#32) ∧ (¬ends → m = s.port.miso)
    ∧ u.active = false ∧ u.status = t.status ∧ u.command = t.command ∧ ∀ x ∈ u.slot, x = ⟨0#32, .void⟩

/-- A row that finds no slot of its register changes nothing. -/
theorem State.SlotIgnored.refl {ends : Prop} (ht : s.port.transaction = some t) (hi : t.inert) (he : ¬ends) :
    s.SlotIgnored t ends s :=
  ⟨t, s.port.miso, by rw [← ht], fun h => absurd h he, fun _ => rfl, hi.1, rfl, rfl, hi.2⟩

theorem State.writeSlot_ignored (ht : s.port.transaction = some t) (hi : t.inert) (index : BitVec 7)
    (act : Transaction → State → State) :
    s.SlotIgnored t (t.command = some (writeByte index)) (s.writeSlot index act) := by
  by_cases hc : t.command = some (writeByte index)
  · rw [State.writeSlot_inactive ht hc hi.1]
    exact ⟨t, .word 0#32, by rw [← ht], fun _ => rfl, fun h => absurd hc h, hi.1, rfl, rfl, hi.2⟩
  · have hsame : s.writeSlot index act = s := by simp [State.writeSlot, ht, hc]
    rw [hsame]
    exact .refl ht hi hc

theorem State.bitSlot_ignored (ht : s.port.transaction = some t) (hi : t.inert) (index : BitVec 7) (w : Word) (b : Nat)
    (act : State → State) :
    s.SlotIgnored t (t.command = some (writeByte index) ∧ w.getLsbD b = true) (s.bitSlot index w b act) := by
  unfold State.bitSlot
  split
  next hb => simpa [hb] using State.writeSlot_ignored ht hi index _
  next hb => exact .refl ht hi fun h => hb h.2

/-- A read slot of an inert transaction presents 0 and is void, whether it was opened before or not. -/
theorem State.readSlot_ignored (ht : s.port.transaction = some t) (hi : t.inert) (index : BitVec 7) (phase : SlotPhase)
    (decide : Transaction → State → Slot) {finish : State → SlotOutcome → State} (hf : ∀ v : State, finish v .void = v) :
    s.SlotIgnored t (t.command = some (readByte index) ∧ phase = .completes) (s.readSlot index phase decide finish) := by
  obtain ⟨hact, hslot⟩ := hi
  by_cases hc : t.command = some (readByte index)
  · cases phase with
    | opens =>
      cases hx : t.slot with
      | none =>
        refine ⟨{ t with slot := some ⟨0#32, .void⟩ }, s.port.miso, ?_, by simp, fun _ => rfl, hact, rfl, rfl, by simp⟩
        simp [State.readSlot, ht, hc, hact, hx, State.withTransaction, State.modPort, State.withPort]
      | some x =>
        have hsame : s.readSlot index .opens decide finish = s := by simp [State.readSlot, ht, hc, hx]
        rw [hsame]
        exact .refl ht ⟨hact, hslot⟩ (by simp)
    | completes =>
      have hvoid : t.slot.getD ⟨0#32, .void⟩ = ⟨0#32, .void⟩ := by
        cases hx : t.slot with
        | none => rfl
        | some x => exact hslot x (by simp [hx])
      refine ⟨{ t with slot := none, first := .past }, .word 0#32, ?_, fun _ => rfl, by simp [hc], hact, rfl, rfl, by simp⟩
      simp [State.readSlot, ht, hc, hact, hvoid, hf, State.withTransaction, State.modPort, State.withPort, State.carry]
  · have hsame : s.readSlot index phase decide finish = s := by simp [State.readSlot, ht, hc]
    rw [hsame]
    exact .refl ht ⟨hact, hslot⟩ fun h => hc h.1

theorem State.ignoredWrite_ignored (ht : s.port.transaction = some t) (hi : t.inert) (index : BitVec 7) (w : Word) :
    s.SlotIgnored t (t.command = some (0#1 ++ index) ∧ index ≠ 6#7 ∧ index ≠ 8#7 ∧ index ≠ 9#7
        ∧ (index = 5#7 → w.extractLsb' 0 3 = 0#3) ∧ (index = 1#7 → w.extractLsb' 16 2 = 0#2))
      (if isIgnoredWrite index w then s.writeSlot index (State.firstWord id) else s) := by
  have hbyte : writeByte index = 0#1 ++ index := BitVec.setWidth_eq_append (h := by decide)
  rw [← isIgnoredWrite_iff, ← hbyte]
  split
  next h => simpa [h] using State.writeSlot_ignored ht hi index _
  next h => exact .refl ht hi fun he => h he.2

/-- An ignored row as the statement about it says it. -/
theorem exec_of_slotIgnored {c : Instr} {v : State} {ends : Prop} (he : exec c s = .next v) (h : s.SlotIgnored t ends v) :
    ∃ u m, exec c s = .next { s with port := { s.port with transaction := some u, miso := m } }
      ∧ (ends → m = .word 0#32) ∧ (¬ends → m = s.port.miso)
      ∧ u.active = false ∧ u.status = t.status ∧ u.command = t.command ∧ ∀ x ∈ u.slot, x = ⟨0#32, .void⟩ := by
  obtain ⟨u, m, rfl, hrest⟩ := h
  exact ⟨u, m, he, hrest⟩

/-- Settles O11, register by register: a written word, a bit of a written word, a read slot in its two ends. -/
theorem notReadySlotsChangeNothing : Obligations.NotReadySlotsChangeNothing := by
  intro s t w index phase ht ha hx ends c hc
  have hi : t.inert := ⟨ha, hx⟩
  simp only [slotRows, List.mem_cons, List.not_mem_nil, or_false] at hc
  obtain rfl | rfl | rfl | rfl | rfl | rfl | rfl | rfl | rfl | rfl | rfl | rfl := hc
  · exact exec_of_slotIgnored rfl (State.writeSlot_ignored ht hi indexPushHead _)
  · exact exec_of_slotIgnored rfl (State.writeSlot_ignored ht hi indexPushBody _)
  · exact exec_of_slotIgnored rfl (State.readSlot_ignored ht hi indexPopHead phase _ fun _ => rfl)
  · exact exec_of_slotIgnored rfl (State.readSlot_ignored ht hi indexPopBody phase _ fun _ => rfl)
  · exact exec_of_slotIgnored rfl (State.readSlot_ignored ht hi indexLinkCounts phase _ fun _ => rfl)
  · exact exec_of_slotIgnored rfl (State.bitSlot_ignored ht hi indexLinkCtrl w bitAssembly _)
  · exact exec_of_slotIgnored rfl (State.bitSlot_ignored ht hi indexLinkCtrl w bitCiq _)
  · exact exec_of_slotIgnored rfl (State.bitSlot_ignored ht hi indexLinkCtrl w bitRnq _)
  · exact exec_of_slotIgnored rfl (State.bitSlot_ignored ht hi indexStatus w bitFraming _)
  · exact exec_of_slotIgnored rfl (State.bitSlot_ignored ht hi indexStatus w bitNoticeLost _)
  · exact exec_of_slotIgnored rfl (State.writeSlot_ignored ht hi indexAttnMask _)
  · exact exec_of_slotIgnored rfl (State.ignoredWrite_ignored ht hi index w)

end Sys2Proof.Machine
end

section
/-! The doorways and the flushes in an active transaction (R8, R9, R12, R13, R14, R16). -/

namespace Sys2Proof.Machine

variable {s : State} {t : Transaction}

/-! ### Inbound (R8, R9, R10) -/

/-- A message is committed when it holds its declared words, and is the assembly otherwise. -/
theorem State.assemble_eq (s : State) (m : Message) : s.assemble m =
    if m.body.length = (headLength m.head).toNat then s.committed m
    else { s with port := { s.port with assembly := some m } } := by
  rw [← State.commitMessage_eq]; rfl

/-- Settles O3, by the fullness of the CIQ and the length of the message. -/
theorem pushHeadHandled : Obligations.PushHeadHandled := by
  intro s t w h p q
  refine ⟨?_, fun ⟨hroom, _, _⟩ ha => ?_⟩
  · show Host.Outcome.next _ = _
    rw [State.writeSlot_of_inTransaction (index := indexPushHead) h]
    congr 1
    unfold State.pushHead
    split
    next hfull => rw [if_pos (show 8 ≤ s.port.ciq.length from hfull)]; rfl
    next hfree =>
      rw [if_neg (show ¬8 ≤ s.port.ciq.length from hfree)]
      have hq : (if s.port.assembly.isSome then ({ s with port := p } : State).modPort HostPort.framingError
          else { s with port := p }) = { s with port := q } := by
        simp only [q]; split <;> rfl
      show State.assemble (if s.port.assembly.isSome then _ else _) _ = _
      rw [hq, State.assemble_eq]
      have hzero : ([] : List Word).length = (headLength w).toNat ↔ headLength w = 0#3 := by
        rw [List.length_nil, eq_comm, ← BitVec.toNat_inj]; rfl
      simp only [hzero]
  · rw [HostPort.reservation, if_pos ha] at hroom
    exact hroom

/-- A body word without an assembly is an orphan (R9). -/
theorem State.pushBody_orphan (h : s.port.assembly = none) (w : Word) : s.pushBody w = s.modPort HostPort.framingError := by
  unfold State.pushBody; rw [h]

/-- A body word of an assembly is appended to it (R9). -/
theorem State.pushBody_append {a : Message} (h : s.port.assembly = some a) (w : Word) :
    s.pushBody w = s.assemble ⟨a.head, a.body ++ [w]⟩ := by
  unfold State.pushBody; rw [h]

/-- Settles O4, by the assembly and the words that it still expects. -/
theorem pushBodyHandled : Obligations.PushBodyHandled := by
  intro s t w h p
  have slot : exec (.pushBody w) s = .next (({ s with port := p } : State).pushBody w) := by
    show Host.Outcome.next _ = _
    rw [State.writeSlot_of_inTransaction (index := indexPushBody) h]
  rw [slot]
  refine ⟨fun ha => ?_, fun a ha => ?_⟩
  · rw [State.pushBody_orphan (by exact ha)]; rfl
  · rw [State.pushBody_append (by exact ha), State.assemble_eq, List.length_append, List.length_singleton]
    exact ⟨fun hmore => by rw [if_neg (Nat.ne_of_lt hmore)], fun hlast => by rw [if_pos hlast]⟩

/-! ### Outbound (R5, R12, R13, R14) -/

/-- CS_N going high ends a transaction whose command byte was complete, whatever slot is in progress (R3, R5). -/
theorem exec_transactionEnd_of_command {b : Byte} (ht : s.port.transaction = some t) (hc : t.command = some b) :
    exec .transactionEnd s = .next { s with port := { s.port with
      transaction := none, miso := .highImpedance, refusedLast := s.port.refusedNow, refusedNow := false } } := by
  show Host.Outcome.next _ = _
  simp [ht, hc, HostPort.latchRefused, State.modPort, State.withPort]

/-- Settles O5: the slot by what it presented, or by the RNQ when one row takes it whole. -/
theorem popHeadSlot : Obligations.PopHeadSlot := by
  intro s t h ended skipped opened
  have opens : t.slot = none → exec (.popHead .opens) s = .next (opened s.decidePopHead) := fun hs =>
    congrArg Host.Outcome.next (State.readSlot_opens (index := indexPopHead) h hs _ _)
  have completes : ∀ x : Slot, t.slot.getD s.decidePopHead = x → exec (.popHead .completes) s = .next
      (State.finishPopHead { s with port := { s.port with transaction := some ended, miso := .word x.presented } } x.outcome) := by
    rintro x rfl
    exact congrArg Host.Outcome.next (State.readSlot_completes (index := indexPopHead) h _ _)
  refine ⟨fun m rest hq => ?_, fun hq hs => ?_, fun hx => ?_, fun w hs => ?_, fun _ => exec_transactionEnd_of_command h.1 h.2.1⟩
  · have decided : s.decidePopHead = ⟨m.head, .hands⟩ := by simp [State.decidePopHead, hq]
    have hands := completes ⟨m.head, .hands⟩
    simp only [State.finishPopHead, hq] at hands
    exact ⟨fun hs => ⟨hands (by rw [hs, decided]; rfl), decided ▸ opens hs⟩, fun hs => hands (by rw [hs]; rfl)⟩
  · have decided : s.decidePopHead = ⟨0#32, .refuses⟩ := by simp [State.decidePopHead, hq]
    exact decided ▸ opens hs
  · refine completes ⟨0#32, .refuses⟩ ?_
    obtain ⟨hq, hs⟩ | hs := hx
    · simp [State.decidePopHead, hq, hs]
    · rw [hs]; rfl
  · exact completes ⟨w, .void⟩ (by rw [hs]; rfl)

/-- Settles O6: the slot by what it presented, or by the pop buffer when one row takes it whole. -/
theorem popBodySlot : Obligations.PopBodySlot := by
  intro s t h ended opened
  have opens : t.slot = none → exec (.popBody .opens) s = .next (opened s.decidePopBody) := fun hs =>
    congrArg Host.Outcome.next (State.readSlot_opens (index := indexPopBody) h hs _ _)
  have completes : ∀ x : Slot, t.slot.getD s.decidePopBody = x → exec (.popBody .completes) s = .next
      (State.finishPopBody { s with port := { s.port with transaction := some ended, miso := .word x.presented } } x.outcome) := by
    rintro x rfl
    exact congrArg Host.Outcome.next (State.readSlot_completes (index := indexPopBody) h _ _)
  refine ⟨fun w rest hq => ?_, fun hq hs => ?_, fun hx => ?_, fun w hs => ?_, fun _ => exec_transactionEnd_of_command h.1 h.2.1⟩
  · have decided : s.decidePopBody = ⟨w, .hands⟩ := by simp [State.decidePopBody, hq]
    have hands := completes ⟨w, .hands⟩
    simp only [State.finishPopBody, State.modPort, hq] at hands
    exact ⟨fun hs => ⟨hands (by rw [hs, decided]; rfl), decided ▸ opens hs⟩, fun hs => hands (by rw [hs]; rfl)⟩
  · have decided : s.decidePopBody = ⟨0#32, .refuses⟩ := by simp [State.decidePopBody, hq]
    exact decided ▸ opens hs
  · refine completes ⟨0#32, .refuses⟩ ?_
    obtain ⟨hq, hs⟩ | hs := hx
    · simp [State.decidePopBody, hq, hs]
    · rw [hs]; rfl
  · exact completes ⟨w, .void⟩ (by rw [hs]; rfl)

/-! ### The bits of a written word, one by one (R4, R16, R193) -/

/-- What an acting bit of LINK_CTRL or STATUS does. -/
def bitAct (b : Nat) (s : State) : State :=
  if b = bitAssembly then s.modPort ({ · with assembly := none })
  else if b = bitCiq then s.modPort ({ · with ciq := [] })
  else if b = bitRnq then (s.modPort ({ · with popBuffer := [] })).withOut { s.out with rnq := [] }
  else if b = bitFraming then s.modPort ({ · with framingSticky := false })
  else s.modPort ({ · with noticeLostSticky := false })

/-- The row of an acting bit is the slot of that bit. -/
theorem exec_bitRow {index : BitVec 7} {b : Nat} (hb : b ∈ actingBits index) (w : Word) (s : State) :
    exec (bitRow w b) s = .next (s.bitSlot index w b (bitAct b)) := by
  unfold actingBits at hb
  split at hb
  next h =>
    simp only [List.mem_cons, List.not_mem_nil, or_false] at hb
    obtain rfl | rfl | rfl := hb <;> subst h <;> rfl
  next =>
    split at hb
    next h =>
      simp only [List.mem_cons, List.not_mem_nil, or_false] at hb
      obtain rfl | rfl := hb <;> subst h <;> rfl
    next => cases hb

/-- A word slot of a write: MISO carries 0, and the first word stands as given. -/
def State.wordTaken (s : State) (t : Transaction) (f : FirstWord) : State :=
  { s with port := { s.port with miso := .word 0#32, transaction := some { t with first := f } } }

/-- A bit acts on the same parts of the state whatever the first word is. -/
theorem State.wordTaken_bitAct (s : State) (t : Transaction) (b : Nat) (f f' : FirstWord) :
    (bitAct b (s.wordTaken t f)).wordTaken { t with first := f } f' = bitAct b (s.wordTaken t f') := by
  unfold bitAct
  split_ifs <;> rfl

theorem State.inTransaction_bitAct {c : Byte} (h : s.inTransaction c t) (b : Nat) (f : FirstWord) :
    (bitAct b (s.wordTaken t f)).inTransaction c { t with first := f } := by
  unfold bitAct
  split_ifs <;> exact ⟨rfl, h.2⟩

/-- The row of a bit that a word sets: it acts when the bit is the next to take of the first word, and otherwise ends
the first word. -/
theorem State.bitSlot_eq {index : BitVec 7} (h : s.inTransaction (writeByte index) t) {w : Word} {b : Nat}
    (hb : w.getLsbD b = true) (act : State → State) :
    s.bitSlot index w b act = match t.first.left (partsOf index w) w with
      | next :: left => if next = b then act (s.wordTaken t (.after w left)) else s.wordTaken t .past
      | [] => s.wordTaken t .past := by
  rw [State.bitSlot, if_pos hb, State.writeSlot_of_inTransaction h]
  rfl

theorem mem_partsOf {index : BitVec 7} {w : Word} {b : Nat} (hb : b ∈ partsOf index w) :
    b ∈ actingBits index ∧ w.getLsbD b = true := by
  simpa [partsOf] using hb

/-- The row of a bit, by the bits that are left of the first word (R4, R16, R193). -/
theorem exec_bitRow_left {index : BitVec 7} (h : s.inTransaction (writeByte index) t) {w : Word} {b : Nat}
    (hb : b ∈ actingBits index) (hset : w.getLsbD b = true) (left : List Nat) :
    t.first.left (partsOf index w) w = left → exec (bitRow w b) s = .next (match left with
      | next :: left => if next = b then bitAct b (s.wordTaken t (.after w left)) else s.wordTaken t .past
      | [] => s.wordTaken t .past) := by
  rintro rfl
  rw [exec_bitRow hb, State.bitSlot_eq h hset]

/-- The rows of the bits that are left of a first word act one after another, and the first word is then over. -/
theorem State.afterRows_bits {index : BitVec 7} {w : Word} (left : List Nat) : ∀ (s : State) (t : Transaction),
    s.inTransaction (writeByte index) t → t.first.left (partsOf index w) w = left → left ≠ [] →
    (∀ b ∈ left, b ∈ partsOf index w) →
    s.afterRows (left.map (bitRow w)) = some (left.foldl (fun u b => bitAct b u) (s.wordTaken t .past)) := by
  induction left with
  | nil => exact fun _ _ _ _ h => absurd rfl h
  | cons b left ih =>
    intro s t h hleft _ hmem
    obtain ⟨hacts, hsets⟩ := mem_partsOf (hmem b List.mem_cons_self)
    have row : exec (bitRow w b) s = .next (bitAct b (s.wordTaken t (.after w left))) := 
      (exec_bitRow_left h hacts hsets _ hleft).trans (congrArg Host.Outcome.next (if_pos rfl))
    rw [List.map_cons, State.afterRows, row]
    show State.afterRows _ (left.map (bitRow w)) = _
    by_cases hlast : left = []
    · subst hlast; rfl
    · rw [ih _ { t with first := .acting w left } ?_ (if_pos rfl) hlast fun x hx => hmem x (List.mem_cons_of_mem b hx)]
      · rw [FirstWord.after, if_neg hlast, State.wordTaken_bitAct]; rfl
      · rw [FirstWord.after, if_neg hlast]; exact State.inTransaction_bitAct h b _

/-- A word written to LINK_CTRL or STATUS spells one row for each acting bit that it sets. -/
theorem writtenRows_of_parts {index : BitVec 7} {w : Word} (h : partsOf index w ≠ []) :
    writtenRows index w = (partsOf index w).map (bitRow w) := by
  have hindex : index = 0x05#7 ∨ index = 0x01#7 := by
    by_contra hn
    exact h (partsOf_other (fun h5 => hn (.inl h5)) (fun h1 => hn (.inr h1)) w)
  have hnot : isIgnoredWrite index w = false := by simp [isIgnoredWrite, h]
  obtain rfl | rfl := hindex <;>
    simp [writtenRows, hnot, indexPushHead, indexPushBody, indexAttnMask]

/-- A word written to LINK_CTRL or STATUS that sets no acting bit is ignored. -/
theorem writtenRows_of_no_parts {index : BitVec 7} (hindex : index = 0x05#7 ∨ index = 0x01#7) {w : Word}
    (h : partsOf index w = []) :
    writtenRows index w = [.ignoredRegisterWrite index w] ∧ isIgnoredWrite index w = true := by
  obtain rfl | rfl := hindex <;>
    simp [writtenRows, isIgnoredWrite, h, indexPushHead, indexPushBody, indexAttnMask]

/-- Rows that change nothing one by one change nothing together. -/
theorem State.afterRows_of_fixed {rows : List Instr} (h : ∀ c ∈ rows, exec c s = .next s) : s.afterRows rows = some s := by
  induction rows with
  | nil => rfl
  | cons c rows ih =>
    rw [State.afterRows, h c List.mem_cons_self]
    exact ih fun x hx => h x (List.mem_cons_of_mem c hx)

/-- Once the first word is over, no word written to LINK_CTRL or STATUS changes anything (R4). -/
theorem exec_laterWord {index : BitVec 7} (hindex : index = 0x05#7 ∨ index = 0x01#7)
    (h : s.inTransaction (writeByte index) t) (hpast : t.first = .past) (hmiso : s.port.miso = .word 0#32) (w : Word) :
    ∀ c ∈ writtenRows index w, exec c s = .next s := by
  have hsame : s.wordTaken t .past = s := by
    rw [State.wordTaken, ← hmiso, ← hpast, ← h.1]
  intro c hc
  by_cases hparts : partsOf index w = []
  · have hrow := writtenRows_of_no_parts hindex hparts
    rw [hrow.1, List.mem_singleton] at hc
    subst hc
    have hlater : t.first ≠ .awaited := by rw [hpast]; decide
    show Host.Outcome.next (if isIgnoredWrite index w then _ else s) = _
    rw [if_pos hrow.2, State.writeSlot_of_inTransaction h, State.firstWord_later _ _ _ hlater]
    exact congrArg Host.Outcome.next hsame
  · rw [writtenRows_of_parts hparts] at hc
    obtain ⟨b, hb, rfl⟩ := List.mem_map.mp hc
    obtain ⟨hacts, hsets⟩ := mem_partsOf hb
    rw [exec_bitRow_left h hacts hsets [] (by rw [hpast]; rfl), hsame]

/-- The first word of LINK_CTRL or STATUS leaves a transaction whose first word is over. -/
theorem afterRows_firstWord {index : BitVec 7} (hindex : index = 0x05#7 ∨ index = 0x01#7)
    (h : s.inTransaction (writeByte index) t) (hfirst : t.first = .awaited) (w : Word) :
    s.afterRows (writtenRows index w) =
      some ((partsOf index w).foldl (fun u b => bitAct b u) (s.wordTaken t .past)) := by
  by_cases hparts : partsOf index w = []
  · have hrow := writtenRows_of_no_parts hindex hparts
    have row : exec (.ignoredRegisterWrite index w) s = .next (s.wordTaken t .past) := by
      show Host.Outcome.next (if isIgnoredWrite index w then _ else s) = _
      rw [if_pos hrow.2, State.writeSlot_of_inTransaction h, State.firstWord_awaited _ _ _ hfirst]
      rfl
    rw [hrow.1, hparts, State.afterRows, row]
    rfl
  · rw [writtenRows_of_parts hparts]
    exact State.afterRows_bits _ s t h (by rw [hfirst]; rfl) hparts fun _ => id

/-- Later words of LINK_CTRL and STATUS change nothing after the first (R4). -/
theorem afterRows_laterWord {index : BitVec 7} (hindex : index = 0x05#7 ∨ index = 0x01#7)
    (h : s.inTransaction (writeByte index) t) (hfirst : t.first = .awaited) (w later : Word) :
    ((s.afterRows (writtenRows index w)).bind fun u => u.afterRows (writtenRows index later))
      = s.afterRows (writtenRows index w) := by
  have past : ∀ (l : List Nat) (u : State), u.inTransaction (writeByte index) { t with first := .past } →
      u.port.miso = .word 0#32 →
      (l.foldl (fun u b => bitAct b u) u).inTransaction (writeByte index) { t with first := .past }
        ∧ (l.foldl (fun u b => bitAct b u) u).port.miso = .word 0#32 := by
    intro l
    induction l with
    | nil => exact fun u hu hm => ⟨hu, hm⟩
    | cons b l ih =>
      intro u hu hm
      refine ih (bitAct b u) ?_ ?_
      all_goals unfold bitAct; split_ifs <;> assumption
  obtain ⟨htrans, hmiso⟩ := past (partsOf index w) (s.wordTaken t .past) ⟨rfl, h.2⟩ rfl
  rw [afterRows_firstWord hindex h hfirst w]
  exact State.afterRows_of_fixed (exec_laterWord hindex htrans rfl hmiso later)

/-! ### The flushes of LINK_CTRL (R16) -/

theorem linkCtrl_rows (w : Word) : (partsOf 0x05#7 w).map (bitRow w) =
    (if w.getLsbD 0 then [Instr.discardAssembly w] else []) ++ (if w.getLsbD 1 then [.discardCiq w] else [])
      ++ (if w.getLsbD 2 then [.discardRnq w] else []) := by
  rw [partsOf_linkCtrl, List.map_append, List.map_append]
  congr 1
  · congr 1 <;> split <;> rfl
  · split <;> rfl

/-- The flushes of one word, each bit on its own part of the port (R16). -/
theorem linkCtrl_flushes (s : State) (w : Word) : (partsOf 0x05#7 w).foldl (fun u b => bitAct b u) s = { s with
    port := { s.port with
      assembly := if w.getLsbD 0 then none else s.port.assembly
      ciq := if w.getLsbD 1 then [] else s.port.ciq
      popBuffer := if w.getLsbD 2 then [] else s.port.popBuffer }
    out := { s.out with rnq := if w.getLsbD 2 then [] else s.out.rnq } } := by
  rw [partsOf_linkCtrl, List.foldl_append, List.foldl_append]
  cases w.getLsbD 0 <;> cases w.getLsbD 1 <;> cases w.getLsbD 2 <;> rfl

/-- Settles O8, by the bits that are left of the first word. -/
theorem flushesDiscardWhatTheyName : Obligations.FlushesDiscardWhatTheyName := by
  intro s t w h parts rows taken
  have hparts : partsOf 0x05#7 w = parts := partsOf_linkCtrl w
  have hrows : parts ≠ [] → writtenRows 0x05#7 w = rows := fun hne =>
    (writtenRows_of_parts (hparts ▸ hne)).trans (linkCtrl_rows w)
  refine ⟨hparts, hrows, fun hne hfirst => ?_, fun later hfirst => afterRows_laterWord (.inl rfl) h hfirst w later, ?_⟩
  · rw [← hrows hne, afterRows_firstWord (.inl rfl) h hfirst w, linkCtrl_flushes]
    rfl
  · intro left hleft next
    rw [← hparts] at hleft
    have row := fun b hb hset => exec_bitRow_left (b := b) h hb hset left hleft
    refine ⟨fun hset => (row 0 (by decide) hset).trans ?_, fun hset => (row 1 (by decide) hset).trans ?_,
      fun hset => (row 2 (by decide) hset).trans ?_⟩
    all_goals
      rcases left with _ | ⟨_ | _ | _ | x, l⟩ <;> rfl

end Sys2Proof.Machine
end

section
/-! What a word slot carries (R1, R4, R5, R6, R14, R192, R193, R194): the bits of the register words, and the read of
LINK_COUNTS. -/

namespace Sys2Proof.Machine

/-! ### Bits of the words that fields make up -/

theorem getLsbD_place {n : Nat} (lo : Nat) (x : BitVec n) (i : Nat) :
    (place lo x).getLsbD i = (decide (lo ≤ i ∧ i < 32) && x.getLsbD (i - lo)) := by
  simp only [place, BitVec.getLsbD_shiftLeft, BitVec.getLsbD_setWidth]
  by_cases h : lo ≤ i
  · by_cases h' : i < 32
    · simp [h, h', show i - lo < 32 by omega]
    · simp [h']
  · simp [h]

theorem getLsbD_placeNat (lo n i : Nat) :
    (placeNat lo n).getLsbD i = (decide (lo ≤ i ∧ i < 32) && n.testBit (i - lo)) := by
  simp only [placeNat, BitVec.getLsbD_shiftLeft, BitVec.getLsbD_ofNat]
  by_cases h : lo ≤ i
  · by_cases h' : i < 32
    · simp [h, h', show i - lo < 32 by omega]
    · simp [h']
  · simp [h]

theorem getLsbD_placeFlags (l : List Bool) : ∀ lo i : Nat,
    (placeFlags lo l).getLsbD i = (decide (lo ≤ i ∧ i < 32) && l.getD (i - lo) false) := by
  induction l with
  | nil => intro lo i; simp [placeFlags]
  | cons b l ih =>
    intro lo i
    simp only [placeFlags, placeFlag, BitVec.getLsbD_or, getLsbD_place, ih]
    obtain h | rfl | h := Nat.lt_trichotomy i lo
    · simp [show ¬lo ≤ i by omega, show ¬lo + 1 ≤ i by omega]
    · by_cases h' : i < 32 <;> simp [h']
    · have hd : i - lo = (i - (lo + 1)) + 1 := by omega
      rw [hd]
      simp [show lo ≤ i by omega, show lo + 1 ≤ i by omega]

/-- A word has only bits outside a mask. -/
theorem and_eq_zero_of_bits {w mask : Word} (h : ∀ i < 32, mask.getLsbD i = true → w.getLsbD i = false) : w &&& mask = 0#32 := by
  apply BitVec.eq_of_getLsbD_eq
  intro i hi
  cases hm : mask.getLsbD i with
  | false => simp only [BitVec.getLsbD_and, hm, Bool.and_false, BitVec.getLsbD_zero]
  | true => simp only [BitVec.getLsbD_and, h i hi hm, Bool.false_and, BitVec.getLsbD_zero]

/-- A word of two numbers, at bit 0 and at bit 8, gives them back and has no bit besides. -/
theorem placeNat_pair {a b m n : Nat} (ha : a < 2 ^ m) (hb : b < 2 ^ n) (hm : m ≤ 8) (hn : n ≤ 24) :
    ((placeNat 0 a ||| placeNat 8 b).extractLsb' 0 m).toNat = a
      ∧ ((placeNat 0 a ||| placeNat 8 b).extractLsb' 8 n).toNat = b
      ∧ ∀ i, m ≤ i → (i < 8 ∨ 8 + n ≤ i) → (placeNat 0 a ||| placeNat 8 b).getLsbD i = false := by
  have low : ∀ i, m ≤ i → a.testBit i = false := fun i hi =>
    Nat.testBit_lt_two_pow (ha.trans_le (Nat.pow_le_pow_right (by decide) hi))
  have high : ∀ i, n ≤ i → b.testBit i = false := fun i hi =>
    Nat.testBit_lt_two_pow (hb.trans_le (Nat.pow_le_pow_right (by decide) hi))
  refine ⟨?_, ?_, fun i hi hi' => ?_⟩
  · have hfield : (placeNat 0 a ||| placeNat 8 b).extractLsb' 0 m = BitVec.ofNat m a := by
      apply BitVec.eq_of_getLsbD_eq
      intro i hi
      simp only [BitVec.getLsbD_extractLsb', BitVec.getLsbD_or, getLsbD_placeNat, BitVec.getLsbD_ofNat, hi,
        show ¬8 ≤ i by omega, show i < 32 by omega, Nat.zero_le, Nat.zero_add, Nat.sub_zero, decide_true,
        false_and, decide_false, and_self, Bool.true_and, Bool.false_and, Bool.or_false]
    rw [hfield, BitVec.toNat_ofNat, Nat.mod_eq_of_lt ha]
  · have hfield : (placeNat 0 a ||| placeNat 8 b).extractLsb' 8 n = BitVec.ofNat n b := by
      apply BitVec.eq_of_getLsbD_eq
      intro i hi
      simp only [BitVec.getLsbD_extractLsb', BitVec.getLsbD_or, getLsbD_placeNat, BitVec.getLsbD_ofNat, hi,
        low (8 + i) (by omega), show 8 + i < 32 by omega, Nat.zero_le, Nat.le_add_right, Nat.add_sub_cancel_left,
        Nat.sub_zero, decide_true, and_self, Bool.true_and, Bool.and_false, Bool.false_or]
    rw [hfield, BitVec.toNat_ofNat, Nat.mod_eq_of_lt hb]
  · simp only [BitVec.getLsbD_or, getLsbD_placeNat, Nat.sub_zero, low i hi, Bool.and_false, Bool.false_or]
    obtain h | h := hi'
    · simp [show ¬8 ≤ i by omega]
    · simp [high (i - 8) (by omega)]

/-! ### Command bytes and what their slots carry (R1, R4, R6) -/

/-- A read byte is bit 7 with the index that it addresses (R1). -/
theorem eq_readByte_addressed {c : Byte} (h : isRead c = true) : c = readByte (addressed c) := by
  apply BitVec.eq_of_getLsbD_eq
  intro i hi
  simp only [isRead] at h
  interval_cases i <;> simp_all [readByte, addressed]

theorem isRead_readByte (index : BitVec 7) : isRead (readByte index) = true := by
  simp [isRead, readByte]

theorem addressed_readByte (index : BitVec 7) : addressed (readByte index) = index := by
  apply BitVec.eq_of_getLsbD_eq
  intro i hi
  interval_cases i <;> simp [readByte, addressed]

variable {s : State} {t : Transaction}

theorem State.slotWord_read {c : Byte} (h : s.inTransaction c t) (hr : isRead c = true) (n : Nat) :
    s.slotWord t n = s.readWord (addressed c) n := by
  simp [State.slotWord, h.2.1, h.2.2, hr]

theorem State.slotWord_write {c : Byte} (hc : t.command = some c) (hw : isRead c = false) (n : Nat) :
    s.slotWord t n = 0#32 := by
  simp [State.slotWord, hc, hw]

theorem State.slotWord_inactive (h : t.active = false) (n : Nat) : s.slotWord t n = 0#32 := by
  unfold State.slotWord; split <;> simp [h]

/-- The first read slot of an ordinary register carries its value, the further ones 0 (R4). -/
theorem State.readWord_ordinary {index : BitVec 7} (hhead : index ≠ indexPopHead) (hbody : index ≠ indexPopBody) (n : Nat) :
    s.readWord index n = if n = 0 then s.registerValue index else 0#32 := by
  simp [State.readWord, hhead, hbody]

/-- The indices that name a register with a value (R191). -/
theorem State.registerValue_other {index : BitVec 7}
    (h : index ∉ [indexIdent, indexStatus, indexInSpace, indexOutWaiting, indexLinkCounts, indexAttnMask]) :
    s.registerValue index = 0#32 := by
  simp only [List.mem_cons, List.not_mem_nil, or_false, not_or] at h
  simp [State.registerValue, h]

/-- A read slot after the first carries 0 but for the pop doorways. -/
theorem State.slotWord_further {c : Byte} (h : s.inTransaction c t) (hhead : c ≠ 0x8A#8) (hbody : c ≠ 0x8B#8) {n : Nat}
    (hn : n ≠ 0) : s.slotWord t n = 0#32 := by
  cases hr : isRead c with
  | false => exact State.slotWord_write h.2.1 hr n
  | true =>
    have other : ∀ index, c ≠ readByte index → addressed c ≠ index := by
      rintro _ hc rfl
      exact hc (eq_readByte_addressed hr)
    rw [State.slotWord_read h hr, State.readWord_ordinary (other _ hhead) (other _ hbody), if_neg hn]

/-- The first slot of a read of an index that names no readable register carries 0 (R191). -/
theorem State.slotWord_unnamed {c : Byte} (h : s.inTransaction c t) :
    (0x80#8 ≤ c ∧ c ≤ 0x84#8 ∨ c = 0x86#8 ∨ c = 0x8A#8 ∨ c = 0x8B#8) ∨ s.slotWord t 0 = 0#32 := by
  cases hr : isRead c with
  | false => exact .inr (State.slotWord_write h.2.1 hr 0)
  | true =>
    by_cases hnamed : addressed c ∈ [indexIdent, indexStatus, indexInSpace, indexOutWaiting, indexLinkCounts, indexAttnMask,
        indexPopHead, indexPopBody]
    · left
      rw [eq_readByte_addressed hr]
      generalize addressed c = index at hnamed
      revert index
      decide
    · right
      simp only [List.mem_cons, List.not_mem_nil, or_false, not_or] at hnamed
      obtain ⟨h0, h1, h2, h3, h4, h6, hA, hB⟩ := hnamed
      rw [State.slotWord_read h hr, State.readWord_ordinary hA hB, if_pos rfl, State.registerValue_other]
      simp [h0, h1, h2, h3, h4, h6]

/-! ### The registers (R7, R11, R14, R192, R194) -/

/-- The bytes of LINK_COUNTS (R14). -/
theorem HostPort.linkCountsWord_eq (p : HostPort) :
    p.linkCountsWord = 0#8 ++ p.skippedCount ++ p.refusedCount ++ p.framingCount := by
  apply BitVec.eq_of_getLsbD_eq
  intro i hi
  simp only [HostPort.linkCountsWord, BitVec.getLsbD_or, getLsbD_place, BitVec.getLsbD_append]
  interval_cases i <;> simp

theorem State.permitNotGranted_eq (s : State) : s.permitNotGranted = decide (s.trip.permit ≠ .permitted) := by
  unfold State.permitNotGranted
  cases s.trip.permit <;> rfl

/-- The fields of STATUS, bit by bit (R192). -/
theorem State.statusWord_bits (s : State) :
    let w := s.statusWord
    w.getLsbD 0 = !s.out.rnq.isEmpty ∧ w.getLsbD 1 = decide (8 ≤ s.port.ciq.length)
      ∧ w.getLsbD 2 = s.port.refusedLast ∧ w.getLsbD 3 = decide (s.trip.permit ≠ .permitted)
      ∧ w.getLsbD 4 = !s.ledger.records.isEmpty ∧ w.getLsbD 5 = s.power.ready ∧ w.getLsbD 6 = s.attention
      ∧ w.extractLsb' 8 2 = s.trip.permit.code
      ∧ w.getLsbD 16 = s.port.framingSticky ∧ w.getLsbD 17 = s.port.noticeLostSticky
      ∧ w.getLsbD 18 = s.ledger.lost ∧ w &&& 0xFFF8FC80#32 = 0#32 := by
  intro w
  have bits : ∀ i, w.getLsbD i =
      (decide (i < 32) && [!s.out.rnq.isEmpty, decide (8 ≤ s.port.ciq.length), s.port.refusedLast,
        decide (s.trip.permit ≠ .permitted), !s.ledger.records.isEmpty, s.power.ready, s.attention].getD i false
      || decide (8 ≤ i ∧ i < 32) && s.trip.permit.code.getLsbD (i - 8)
      || decide (16 ≤ i ∧ i < 32) && [s.port.framingSticky, s.port.noticeLostSticky, s.ledger.lost].getD (i - 16) false) := by
    intro i
    simp only [w, State.statusWord, BitVec.getLsbD_or, getLsbD_placeFlags, getLsbD_place, Nat.zero_le, true_and, Nat.sub_zero,
      State.permitNotGranted_eq]
    rfl
  refine ⟨?_, ?_, ?_, ?_, ?_, ?_, ?_, ?_, ?_, ?_, ?_, and_eq_zero_of_bits fun i hi hmask => ?_⟩
  case refine_8 =>
    apply BitVec.eq_of_getLsbD_eq
    intro i hi
    simp only [BitVec.getLsbD_extractLsb', bits]
    interval_cases i <;> simp
  case refine_12 =>
    rw [bits]
    interval_cases i <;> simp at hmask ⊢
  all_goals simp only [bits]; simp

/-- The fields of IN_SPACE: the free slots and the words that an assembly expects (R7). -/
theorem HostPort.inSpaceWord_fields (p : HostPort) :
    (p.inSpaceWord.extractLsb' 0 4).toNat = 8 - p.ciq.length - p.reservation
      ∧ (p.inSpaceWord.extractLsb' 8 4).toNat = p.expected ∧ p.inSpaceWord &&& 0xFFFFF0F0#32 = 0#32 := by
  have hexpected : p.expected < 2 ^ 4 := by
    unfold HostPort.expected
    split
    next a _ => have := (headLength a.head).isLt; omega
    next => decide
  obtain ⟨hspace, hwords, hrest⟩ := placeNat_pair (a := ciqSlots - p.ciq.length - p.reservation) (m := 4)
    (by unfold ciqSlots; omega) hexpected (by decide) (by decide)
  refine ⟨hspace, hwords, and_eq_zero_of_bits fun i hi hmask => hrest i ?_ ?_⟩
  all_goals interval_cases i <;> simp at hmask ⊢

/-- The fields of OUT_WAITING: the messages of the RNQ and the words of the pop buffer (R11). -/
theorem State.outWaitingWord_fields {s : State} (h : s.outboundWf) :
    (s.outWaitingWord.extractLsb' 0 6).toNat = s.out.rnq.length
      ∧ (s.outWaitingWord.extractLsb' 8 3).toNat = s.port.popBuffer.length ∧ s.outWaitingWord &&& 0xFFFFF8C0#32 = 0#32 := by
  obtain ⟨hrnq, -, -, -, hpop⟩ := h
  unfold rnqSlots at hrnq
  obtain ⟨hmessages, hwords, hrest⟩ := placeNat_pair (a := s.out.rnq.length) (b := s.port.popBuffer.length) (m := 6) (n := 3)
    (by omega) (by omega) (by decide) (by decide)
  refine ⟨hmessages, hwords, and_eq_zero_of_bits fun i hi hmask => hrest i ?_ ?_⟩
  all_goals interval_cases i <;> simp at hmask ⊢

/-! ### LINK_COUNTS (R14) -/

/-- What a slot of LINK_COUNTS decides at its start: the counters in the first, 0 in a later one. -/
def State.decideLinkCounts (t : Transaction) (s : State) : Slot :=
  if t.first = .awaited then ⟨s.readWord indexLinkCounts 0, .hands⟩ else ⟨s.readWord indexLinkCounts 1, .void⟩

theorem State.decideLinkCounts_first (h : t.first = .awaited) (s : State) : s.decideLinkCounts t =
    ⟨0#8 ++ s.port.skippedCount ++ s.port.refusedCount ++ s.port.framingCount, .hands⟩ := by
  rw [State.decideLinkCounts, if_pos h, ← HostPort.linkCountsWord_eq]; rfl

theorem State.decideLinkCounts_later (h : t.first ≠ .awaited) (s : State) : s.decideLinkCounts t = ⟨0#32, .void⟩ := by
  rw [State.decideLinkCounts, if_neg h]; rfl

/-- Settles O7: the slots of LINK_COUNTS by what they presented, and then what a slot carries, register by register. -/
theorem linkCountsReadOnce : Obligations.LinkCountsReadOnce := by
  refine ⟨?_, fun s t n => ?_⟩
  · intro s t h ended counts opened carried cleared
    have opens : t.slot = none → exec (.linkCountsRead .opens) s = .next (opened (s.decideLinkCounts t)) := fun hs =>
      congrArg Host.Outcome.next (State.readSlot_opens (index := indexLinkCounts) h hs _ _)
    have completes : ∀ x : Slot, t.slot.getD (s.decideLinkCounts t) = x → exec (.linkCountsRead .completes) s =
        .next (State.finishLinkCounts (carried x.presented) x.outcome) := by
      rintro x rfl
      exact congrArg Host.Outcome.next (State.readSlot_completes (index := indexLinkCounts) h _ _)
    refine ⟨fun hs => ⟨fun hfirst => ?_, fun hlater => ?_⟩, fun w hs => completes ⟨w, .hands⟩ (by rw [hs]; rfl),
      fun w hs => completes ⟨w, .void⟩ (by rw [hs]; rfl), fun _ => exec_transactionEnd_of_command h.1 h.2.1⟩
    · have decided := State.decideLinkCounts_first hfirst s
      exact ⟨decided ▸ opens hs, completes ⟨counts, .hands⟩ (by rw [hs]; exact decided)⟩
    · have decided := State.decideLinkCounts_later hlater s
      exact ⟨decided ▸ opens hs, completes ⟨0#32, .void⟩ (by rw [hs]; exact decided)⟩
  · have read : ∀ {c : Byte} (index : BitVec 7), c = readByte index → s.inTransaction c t → ∀ n, s.slotWord t n = s.readWord index n := by
      rintro _ index rfl h n
      rw [State.slotWord_read h (isRead_readByte index), addressed_readByte]
    refine ⟨fun ha => State.slotWord_inactive ha n, fun c hc hw => State.slotWord_write hc hw n,
      fun c h hhead hbody hn => State.slotWord_further h hhead hbody hn, fun h => ?_, fun h => ?_, fun h => read indexIdent rfl h 0,
      fun h => ?_, fun h _ => ?_, fun h hout => ?_, fun h => ?_, fun h => ?_, fun c h => State.slotWord_unnamed h⟩
    · rw [read indexPopHead rfl h n]
      show s.decidePopHead.presented = _
      unfold State.decidePopHead
      split <;> simp [*]
    · rw [read indexPopBody rfl h n]
      show s.decidePopBody.presented = _
      unfold State.decidePopBody
      split <;> simp [*]
    · rw [read indexStatus rfl h 0]
      exact s.statusWord_bits
    · rw [read indexInSpace rfl h 0]
      exact s.port.inSpaceWord_fields
    · rw [read indexOutWaiting rfl h 0]
      exact State.outWaitingWord_fields hout
    · rw [read indexLinkCounts rfl h 0]
      exact HostPort.linkCountsWord_eq _
    · rw [read indexAttnMask rfl h 0]
      show s.port.attnMask.setWidth 32 <<< 0 = _
      rw [BitVec.shiftLeft_zero]
      exact BitVec.setWidth_eq_append (h := by decide)

end Sys2Proof.Machine
end

section
/-! The ends of a transaction, the link status byte, and the order of the bits on the wire (R1, R2, R3, R6, R17, R192). -/

namespace Sys2Proof.Machine

/-! ### The wire (R1) -/

theorem byteBits_length (b : Byte) : (byteBits b).length = 8 := rfl

theorem wordBits_length (w : Word) : (wordBits w).length = 32 := rfl

theorem byteBits_getElem? (b : Byte) {i : Nat} (hi : i < 8) : (byteBits b)[i]? = some (b.getLsbD (7 - i)) := by
  interval_cases i <;> rfl

theorem wordBits_getElem? (w : Word) {i : Nat} (hi : i < 32) : (wordBits w)[i]? = some (w.getLsbD (31 - i)) := by
  interval_cases i <;> simp [wordBits, byteBits]

theorem byteOfBits_byteBits (b : Byte) : byteOfBits (byteBits b) = b := by
  apply BitVec.eq_of_getLsbD_eq
  intro i hi
  interval_cases i <;> simp [byteOfBits, byteBits]

/-- The four bytes of a word put together again. -/
theorem bytes_append (w : Word) :
    w.extractLsb' 24 8 ++ w.extractLsb' 16 8 ++ w.extractLsb' 8 8 ++ w.extractLsb' 0 8 = w := by
  apply BitVec.eq_of_getLsbD_eq
  intro i hi
  simp only [BitVec.getLsbD_append, BitVec.getLsbD_extractLsb']
  interval_cases i <;> simp

theorem wordOfBits_wordBits (w : Word) : wordOfBits (wordBits w) = w := by
  have slices : wordOfBits (wordBits w) =
      byteOfBits (byteBits (w.extractLsb' 24 8)) ++ byteOfBits (byteBits (w.extractLsb' 16 8))
        ++ byteOfBits (byteBits (w.extractLsb' 8 8)) ++ byteOfBits (byteBits (w.extractLsb' 0 8)) := rfl
  rw [slices]
  simp only [byteOfBits_byteBits]
  exact bytes_append w

/-- The bits of whole words, and any bits behind them, spell the rows of the words. -/
theorem slotsRows_words (c : Byte) (rest : List Bool) (words : List Word) :
    slotsRows c words.length (words.flatMap wordBits ++ rest) = words.flatMap (slotRow c) := by
  induction words with
  | nil => rfl
  | cons w words ih =>
    rw [List.flatMap_cons, List.append_assoc, List.length_cons, slotsRows, List.take_left' (wordBits_length w),
      List.drop_left' (wordBits_length w), wordOfBits_wordBits, ih, List.flatMap_cons]

/-- A command byte and whole words, with less than a word behind them, spell the rows of the words. -/
theorem transactionRows_words (c : Byte) (words : List Word) {rest : List Bool} (hrest : rest.length < 32) :
    transactionRows (byteBits c ++ words.flatMap wordBits ++ rest)
      = [.transactionStart (some c)] ++ words.flatMap (slotRow c) ++ [.transactionEnd] := by
  have hbits : (words.flatMap wordBits).length = 32 * words.length := by
    simp [List.length_flatMap, wordBits_length, Nat.mul_comm]
  have hlength : (byteBits c ++ (words.flatMap wordBits ++ rest)).length = 8 + (32 * words.length + rest.length) := by
    rw [List.length_append, List.length_append, hbits, byteBits_length]
  have hslots : (8 + (32 * words.length + rest.length) - 8) / 32 = words.length := by omega
  rw [List.append_assoc, transactionRows, if_neg (by omega), List.take_left' (byteBits_length c),
    List.drop_left' (byteBits_length c), byteOfBits_byteBits, hlength, hslots, slotsRows_words]

/-! ### With CS_N high (R1) -/

theorem State.bitSlot_idle {s : State} (h : s.port.transaction = none) (index : BitVec 7) (w : Word) (b : Nat)
    (act : State → State) : s.bitSlot index w b act = s := by
  rw [State.bitSlot, State.writeSlot_idle h, ite_self]

theorem State.readSlot_idle {s : State} (h : s.port.transaction = none) (index : BitVec 7) (phase : SlotPhase)
    (decide : Transaction → State → Slot) (finish : State → SlotOutcome → State) :
    s.readSlot index phase decide finish = s := by
  unfold State.readSlot; rw [h]

theorem exec_slotRow_idle {s : State} (h : s.port.transaction = none) {w : Word} {index : BitVec 7} {phase : SlotPhase}
    {c : Instr} (hc : c ∈ slotRows w index phase) : exec c s = .next s := by
  simp only [slotRows, List.mem_cons, List.not_mem_nil, or_false] at hc
  obtain rfl | rfl | rfl | rfl | rfl | rfl | rfl | rfl | rfl | rfl | rfl | rfl := hc
  · exact congrArg Host.Outcome.next (State.writeSlot_idle h indexPushHead _)
  · exact congrArg Host.Outcome.next (State.writeSlot_idle h indexPushBody _)
  · exact congrArg Host.Outcome.next (State.readSlot_idle h indexPopHead phase _ _)
  · exact congrArg Host.Outcome.next (State.readSlot_idle h indexPopBody phase _ _)
  · exact congrArg Host.Outcome.next (State.readSlot_idle h indexLinkCounts phase _ _)
  · exact congrArg Host.Outcome.next (State.bitSlot_idle h indexLinkCtrl w bitAssembly _)
  · exact congrArg Host.Outcome.next (State.bitSlot_idle h indexLinkCtrl w bitCiq _)
  · exact congrArg Host.Outcome.next (State.bitSlot_idle h indexLinkCtrl w bitRnq _)
  · exact congrArg Host.Outcome.next (State.bitSlot_idle h indexStatus w bitFraming _)
  · exact congrArg Host.Outcome.next (State.bitSlot_idle h indexStatus w bitNoticeLost _)
  · exact congrArg Host.Outcome.next (State.writeSlot_idle h indexAttnMask _)
  · show Host.Outcome.next (if isIgnoredWrite index w then _ else s) = _
    rw [State.writeSlot_idle h, ite_self]

/-! ### The link status byte (R2, R17, R192) -/

/-- While ready is 1 the eight flags of the link status byte stand at their bits. -/
theorem State.linkStatus_bits {s : State} (hr : s.power.ready = true) (i : Nat) : s.linkStatus.getLsbD i =
    [!s.out.rnq.isEmpty, decide (8 ≤ s.port.ciq.length), s.port.refusedLast, decide (s.trip.permit ≠ .permitted),
      !s.ledger.records.isEmpty, true, s.port.framingSticky, s.attention].getD i false := by
  rw [State.linkStatus, if_pos hr, State.permitNotGranted_eq]
  simp only [BitVec.getLsbD_setWidth, getLsbD_placeFlags, Nat.zero_le, true_and, Nat.sub_zero]
  by_cases hi : i < 8
  · simp only [hi, show i < 32 by omega, decide_true, Bool.true_and]; rfl
  · rw [List.getD_eq_default _ _ (Nat.le_of_not_lt hi)]
    simp [hi]

/-- While ready is 1 ATTN_N is asserted by the enabled conditions (R17). -/
theorem State.attention_eq {s : State} (hr : s.power.ready = true) : s.attention =
    (s.port.attnMask.getLsbD 0 && !s.out.rnq.isEmpty
      || s.port.attnMask.getLsbD 1 && decide (s.trip.permit ≠ .permitted)
      || s.port.attnMask.getLsbD 2 && !s.ledger.records.isEmpty
      || s.port.attnMask.getLsbD 3 && (s.port.framingSticky || s.port.noticeLostSticky || s.ledger.lost)) := by
  rw [State.attention, hr, State.permitNotGranted_eq]; rfl

/-- While ready is 0 the link status byte is 0 and ATTN_N is released (R2, R17). -/
theorem State.notReady_silent {s : State} (hr : s.power.ready = false) : s.linkStatus = 0#8 ∧ s.attention = false := by
  simp [State.linkStatus, State.attention, hr]

/-- Settles O10, by the rows of the two ends, the flags, and the bits of the wire. -/
theorem transactionBeginsAndEnds : Obligations.TransactionBeginsAndEnds := by
  refine ⟨fun s => ⟨fun command h => ?_, fun t b ht hc => exec_transactionEnd_of_command ht hc, fun t ht hc => ?_,
    fun h w index phase c hc => exec_slotRow_idle h hc, fun hr => ?_, State.notReady_silent⟩,
    fun b i hi => ⟨byteBits_getElem? b hi, byteOfBits_byteBits b⟩,
    fun w i hi => ⟨wordBits_getElem? w hi, wordOfBits_wordBits w⟩,
    fun c words rest hrest => transactionRows_words c words hrest, fun bits h => if_pos h, fun c w => rfl⟩
  · show Host.Outcome.next _ = _
    rw [h]; rfl
  · show Host.Outcome.next _ = _
    simp [ht, hc, HostPort.latchRefused, State.modPort, State.withPort]
  · have bits := State.linkStatus_bits hr
    exact ⟨bits 0, bits 1, bits 2, bits 3, bits 4, bits 5, bits 6, bits 7, State.attention_eq hr⟩

end Sys2Proof.Machine
end

section
/-! Power and reset: the end of initialisation (R57, R161), the power-on values (R187, R190), and a part that is not
ready, in which nothing is due (R6). -/

namespace Sys2Proof.Machine

/-! ### Tables of values -/

theorem tabulate12_getElem {α : Type} (f : Fin 12 → α) (p : Fin 12) : (tabulate12 f)[p] = f p := by fin_cases p <;> rfl
theorem tabulate8_getElem {α : Type} (f : Fin 8 → α) (n : Fin 8) : (tabulate8 f)[n] = f n := by fin_cases n <;> rfl
theorem tabulate3_getElem {α : Type} (f : Fin 3 → α) (b : Fin 3) : (tabulate3 f)[b] = f b := by fin_cases b <;> rfl

/-- A table whose values are all read back is the table itself. -/
theorem tabulate12_eq {α : Type} {f : Fin 12 → α} {v : Vector α 12} (h : ∀ p : Fin 12, f p = v[p]) : tabulate12 f = v :=
  Vector.ext fun i hi => (tabulate12_getElem f ⟨i, hi⟩).trans (h ⟨i, hi⟩)

theorem tabulate8_eq {α : Type} {f : Fin 8 → α} {v : Vector α 8} (h : ∀ n : Fin 8, f n = v[n]) : tabulate8 f = v :=
  Vector.ext fun i hi => (tabulate8_getElem f ⟨i, hi⟩).trans (h ⟨i, hi⟩)

theorem tabulate3_eq {α : Type} {f : Fin 3 → α} {v : Vector α 3} (h : ∀ b : Fin 3, f b = v[b]) : tabulate3 f = v :=
  Vector.ext fun i hi => (tabulate3_getElem f ⟨i, hi⟩).trans (h ⟨i, hi⟩)

/-! ### The end of initialisation (R6, R57, R161) -/

/-- Settles O13: the three tables of inputs are read from the pins. -/
theorem initialisationSettlesInputs : Obligations.InitialisationSettlesInputs := by
  intro s h
  refine ⟨_, congrArg Host.Outcome.next (if_pos h), rfl, rfl, fun p => ?_, fun n => ?_, rfl, fun b => ?_, ?_⟩
  · exact tabulate12_getElem _ p
  · exact tabulate8_getElem _ n
  · refine (tabulate3_getElem _ b).trans ?_
    show (⟨_, _ == true⟩ : SafetyInput) = _
    rw [beq_true]; rfl
  · show (⟨_, _ == false⟩ : SafetyInput) = _
    rw [beq_false]; rfl

/-! ### The state of a power-on reset (R18, R57, R77, R105, R190) -/

theorem reset_chan (k : Fin 6) : State.reset.chan k = Channel.reset := by simp [State.chan, State.reset]

theorem reset_line (n : Fin 12) : State.reset.line n = Line.reset := by simp [State.line, State.reset, LineMatrix.reset]

theorem reset_pair (j : Fin 6) : State.reset.pair j = Pair.reset := by simp [State.pair, State.reset, LineMatrix.reset]

theorem reset_quiet : State.reset.quiet :=
  ⟨rfl, by simp [State.reset, HostPort.reset], rfl, rfl, rfl, rfl, rfl, rfl, rfl, rfl, rfl⟩

/-- Settles O14. -/
theorem powerOnStateHoldsResetValues : Obligations.PowerOnStateHoldsResetValues := by
  refine ⟨rfl, reset_quiet, rfl, rfl, rfl, rfl, rfl, rfl, rfl, rfl, rfl, rfl, rfl, rfl, fun k => ?_, fun n => ?_, fun j => ?_,
    fun n => ?_⟩
  · rw [reset_chan]; exact ⟨rfl, rfl, rfl, rfl, rfl, rfl⟩
  · rw [reset_line]; exact ⟨rfl, rfl, rfl⟩
  · rw [reset_pair]; exact ⟨rfl, rfl⟩
  · simp [State.dinPin, State.reset, FrontEnd.reset]

theorem reset_queuesWf : State.reset.queuesWf := by
  refine ⟨⟨Nat.zero_le _, ?_, ?_⟩, Nat.zero_le _, Nat.zero_le _, rfl, ?_, Nat.zero_le _⟩ <;>
    simp [State.reset, HostPort.reset, Outbox.reset]

theorem Channel.reset_wf : Channel.reset.wf := by
  unfold Channel.wf
  decide

theorem reset_channelsWf : State.reset.channelsWf := by
  refine ⟨fun k => ?_, fun k _ => ?_⟩
  · rw [reset_chan]; exact Channel.reset_wf
  · rw [reset_chan, reset_chan]; decide

theorem reset_linesWf : State.reset.linesWf := by
  refine ⟨fun n => ?_, fun j => ?_, fun k => ?_, by simp [State.heldPinsWf, State.reset]⟩
  · rw [reset_line]
    exact ⟨nofun, fun _ => rfl⟩
  · unfold State.pairWf
    rw [reset_pair]
    exact ⟨nofun, nofun⟩
  · unfold State.marksWf State.marksOwned
    rw [reset_chan]
    exact ⟨nofun, nofun⟩

theorem reset_tripWf : State.reset.tripWf := by
  refine ⟨fun k => ?_, nofun, fun b => ?_, nofun⟩
  · unfold State.faultWf
    rw [reset_chan]
    simp [Channel.reset, State.reset, TripUnit.reset]
  · simp [State.reset, SafetyInputs.reset]

theorem reset_ledgerWf : State.reset.ledgerWf := ⟨Nat.zero_le _, .nil, nofun⟩

/-- Settles O60. -/
theorem resetMeetsEveryCondition : Obligations.ResetMeetsEveryCondition :=
  ⟨reset_queuesWf, fun _ => reset_quiet, reset_channelsWf, reset_linesWf, reset_tripWf, reset_ledgerWf⟩

end Sys2Proof.Machine
end

section
/-! A part that is not ready keeps its power-on values: nothing is due, no message waits, and the pins and an inert
transaction are all that a row can change (R6, R18, R187, R190). -/

namespace Sys2Proof.Machine

variable {s t : State}

/-! ### Inputs that follow their pins (R57) -/

/-- The front end of a part in reset: filtered levels at the pins without candidates, and default DIN settings. -/
theorem FrontEnd.eq_afterReset_iff (f : FrontEnd) : f = f.afterReset ↔
    (∀ p : Fin 12, f.count[p] = f.count[p].settle) ∧ (∀ n : Fin 8, f.din[n] = ⟨f.din[n].input.settle, 2#2, false⟩)
      ∧ f.restarted = 0#12 := by
  constructor
  · intro h
    refine ⟨fun p => ?_, fun n => ?_, congrArg FrontEnd.restarted h⟩
    · exact (congrArg (·.count[p]) h).trans (tabulate12_getElem _ p)
    · exact (congrArg (·.din[n]) h).trans (tabulate8_getElem _ n)
  · rintro ⟨hcount, hdin, hrestarted⟩
    rw [FrontEnd.afterReset, tabulate12_eq fun p => (hcount p).symm, tabulate8_eq fun n => (hdin n).symm, ← hrestarted]

theorem SafetyInputs.eq_afterReset_iff (i : SafetyInputs) : i = i.afterReset ↔
    i.tripIn = ⟨i.tripIn.input.settle, false⟩ ∧ (∀ b : Fin 3, i.ovl[b] = ⟨i.ovl[b].input.settle, false⟩)
      ∧ i.supplyOk = ⟨i.supplyOk.input.settle, false⟩ := by
  constructor
  · intro h
    refine ⟨congrArg SafetyInputs.tripIn h, fun b => ?_, congrArg SafetyInputs.supplyOk h⟩
    exact (congrArg (·.ovl[b]) h).trans (tabulate3_getElem _ b)
  · rintro ⟨htrip, hovl, hsupply⟩
    rw [SafetyInputs.afterReset, tabulate3_eq fun b => (hovl b).symm, ← htrip, ← hsupply]

theorem FrontEnd.afterReset_idem (f : FrontEnd) : f.afterReset = f.afterReset.afterReset := rfl

theorem SafetyInputs.afterReset_idem (i : SafetyInputs) : i.afterReset = i.afterReset.afterReset := rfl

theorem Miso.silenced_silenced (m : Miso) : m.silenced.silenced = m.silenced := by cases m <;> rfl

/-! ### What a quiet state holds -/

theorem State.quiet.chan (h : s.quiet) (k : Fin 6) : s.chan k = Channel.reset := by
  obtain ⟨-, -, -, -, -, hchannels, -⟩ := h
  simp [State.chan, hchannels]

theorem State.quiet.matrix (h : s.quiet) : s.matrix = LineMatrix.reset := by
  obtain ⟨-, -, -, -, -, -, hmatrix, -⟩ := h
  exact hmatrix

theorem State.quiet.line (h : s.quiet) (n : Fin 12) : s.line n = Line.reset := by
  simp [State.line, h.matrix, LineMatrix.reset]

theorem State.quiet.pair (h : s.quiet) (j : Fin 6) : s.pair j = Pair.reset := by
  simp [State.pair, h.matrix, LineMatrix.reset]

theorem State.quiet.watchLeft (h : s.quiet) : s.trip.watchLeft = none := by
  obtain ⟨-, -, -, -, -, -, -, htrip, -⟩ := h
  rw [htrip]; rfl

theorem State.quiet.instant (h : s.quiet) : s.instant = none := by
  obtain ⟨-, -, -, -, -, -, -, -, -, -, hinstant⟩ := h
  exact hinstant

theorem State.quiet.inputs (h : s.quiet) : (∀ p : Fin 12, s.inputs.count[p] = s.inputs.count[p].settle)
    ∧ (∀ n : Fin 8, s.inputs.din[n] = ⟨s.inputs.din[n].input.settle, 2#2, false⟩) ∧ s.inputs.restarted = 0#12 := by
  obtain ⟨-, -, -, hinputs, -⟩ := h
  exact s.inputs.eq_afterReset_iff.mp hinputs

theorem State.quiet.safety (h : s.quiet) : s.safety.tripIn = ⟨s.safety.tripIn.input.settle, false⟩
    ∧ (∀ b : Fin 3, s.safety.ovl[b] = ⟨s.safety.ovl[b].input.settle, false⟩)
    ∧ s.safety.supplyOk = ⟨s.safety.supplyOk.input.settle, false⟩ := by
  obtain ⟨-, -, -, -, hsafety, -⟩ := h
  exact s.safety.eq_afterReset_iff.mp hsafety

theorem State.quiet.count_held (h : s.quiet) (p : Fin 12) : (s.countPin p).held = none :=
  congrArg FilteredInput.held (h.inputs.1 p)

theorem State.quiet.din_held (h : s.quiet) (n : Fin 8) : (s.dinPin n).input.held = none :=
  congrArg (·.input.held) (h.inputs.2.1 n)

theorem State.quiet.tripIn (h : s.quiet) : s.safety.tripIn.owed = false ∧ s.safety.tripIn.input.held = none :=
  ⟨congrArg SafetyInput.owed h.safety.1, congrArg (·.input.held) h.safety.1⟩

theorem State.quiet.ovl (h : s.quiet) (b : Fin 3) : s.safety.ovl[b].owed = false ∧ s.safety.ovl[b].input.held = none :=
  ⟨congrArg SafetyInput.owed (h.safety.2.1 b), congrArg (·.input.held) (h.safety.2.1 b)⟩

theorem State.quiet.supplyOk (h : s.quiet) : s.safety.supplyOk.owed = false ∧ s.safety.supplyOk.input.held = none :=
  ⟨congrArg SafetyInput.owed h.safety.2.2, congrArg (·.input.held) h.safety.2.2⟩

/-- The Host Port of a quiet state: all is at its power-on value but the transaction and a MISO that carries 0. -/
theorem State.quiet.port (h : s.quiet) : ∃ x m, s.port = { HostPort.reset with transaction := x, miso := m }
    ∧ m.silenced = m ∧ ∀ t ∈ x, t.inert :=
  ⟨_, _, h.1, Miso.silenced_silenced _, h.2.1⟩

theorem State.quiet.withPort (h : s.quiet) {x : Option Transaction} {m : Miso} (hm : m.silenced = m)
    (hx : ∀ t ∈ x, t.inert) : (s.withPort { HostPort.reset with transaction := x, miso := m }).quiet := by
  obtain ⟨-, -, hrest⟩ := h
  exact ⟨by simp [State.withPort, hm], hx, hrest⟩

theorem State.quiet.withInputs (h : s.quiet) {f : FrontEnd} (hf : f = f.afterReset) : (s.withInputs f).quiet := by
  obtain ⟨hport, hinert, hout, -, hrest⟩ := h
  exact ⟨hport, hinert, hout, hf, hrest⟩

theorem State.quiet.withSafety (h : s.quiet) {i : SafetyInputs} (hi : i = i.afterReset) : (s.withSafety i).quiet := by
  obtain ⟨hport, hinert, hout, hinputs, -, hrest⟩ := h
  exact ⟨hport, hinert, hout, hinputs, hi, hrest⟩

theorem State.quiet.nextMessage (h : s.quiet) : s.nextMessage = none := by
  obtain ⟨x, m, hport, -⟩ := h.port
  rw [State.nextMessage, hport]; rfl

/-! ### In a quiet state nothing is due (R32) -/

theorem FilteredInput.due_of_held {i : FilteredInput} (h : i.held = none) (time : Nat) : i.due time = false := by
  rw [FilteredInput.due, h]

theorem State.quiet.asserts (h : s.quiet) :
    s.tripInAsserts = false ∧ (∀ b, s.overloadAsserts b = false) ∧ s.supplyAsserts = false := by
  refine ⟨?_, fun b => ?_, ?_⟩
  · simp [State.tripInAsserts, h.tripIn, FilteredInput.due_of_held]
  · obtain ⟨howed, hheld⟩ := h.ovl b
    rw [State.overloadAsserts, howed, FilteredInput.due_of_held hheld]; rfl
  · simp [State.supplyAsserts, h.supplyOk, FilteredInput.due_of_held]

theorem State.quiet.releases (h : s.quiet) :
    s.tripInReleases = false ∧ (∀ b, s.overloadReleases b = false) ∧ s.supplyReleases = false := by
  refine ⟨?_, fun b => ?_, ?_⟩
  · simp [State.tripInReleases, h.tripIn, FilteredInput.due_of_held]
  · obtain ⟨howed, hheld⟩ := h.ovl b
    rw [State.overloadReleases, howed, FilteredInput.due_of_held hheld]; rfl
  · simp [State.supplyReleases, h.supplyOk, FilteredInput.due_of_held]

theorem State.quiet.stallDue (h : s.quiet) (k : Fin 6) : s.stallDue k = false := by
  simp [State.stallDue, h.chan, Channel.reset]

theorem State.quiet.windowDue (h : s.quiet) (k : Fin 6) : s.windowDue k = none := by
  simp [State.windowDue, h.chan, Channel.reset]

theorem State.quiet.countDue (h : s.quiet) (p : Fin 12) : s.countDue p = false := by
  simp [State.countDue, FilteredInput.due_of_held (h.count_held p)]

theorem State.quiet.dinDue (h : s.quiet) (n : Fin 8) : s.dinDue n = false := FilteredInput.due_of_held (h.din_held n) _

theorem State.quiet.acceptCounts (h : s.quiet) (pins : BitVec 12) : s.acceptCounts pins = s.inputs := by
  rw [State.acceptCounts, tabulate12_eq fun p => by simp [h.countDue]; rfl]

/-- A channel whose mode is OFF takes no step and counts no phase error (R40). -/
theorem State.takeSteps_off {k : Fin 6} (h : (s.chan k).active.mode = .off) (before after : FrontEnd) :
    s.takeSteps before after k = s := by
  simp [State.takeSteps, State.stepsOf, State.phaseErrorOf, h]

theorem soonest_eq_none {l : List (Option Nat)} (h : ∀ x ∈ l, x = none) : soonest l = none := by
  induction l with
  | nil => rfl
  | cons x l ih =>
    obtain ⟨rfl, hl⟩ := List.forall_mem_cons.mp h
    exact ih hl

theorem State.quiet.channelLeft (h : s.quiet) (k : Fin 6) : ∀ x ∈ s.channelLeft k, x = none := by
  simp [State.channelLeft, h.chan, Channel.reset]

/-- No filter time and no timer runs, so nothing will come by itself. -/
theorem State.quiet.untilDue (h : s.quiet) : s.untilDue = none := by
  refine soonest_eq_none ?_
  simp only [List.forall_mem_append, List.forall_mem_map, List.forall_mem_cons, List.mem_flatMap]
  refine ⟨⟨⟨⟨⟨⟨⟨?_, ?_, h.watchLeft, nofun⟩, fun b _ => ?_⟩, fun p _ => ?_⟩, fun n _ => ?_⟩, fun n _ => ?_⟩,
    fun j _ => ?_⟩, ?_⟩
  · simp [SafetyInput.left, FilteredInput.left, h.tripIn]
  · simp [SafetyInput.left, FilteredInput.left, h.supplyOk]
  · obtain ⟨howed, hheld⟩ := h.ovl b
    rw [SafetyInput.left, howed, FilteredInput.left, hheld]; rfl
  · rw [FilteredInput.left, h.count_held]; rfl
  · rw [FilteredInput.left, h.din_held]; rfl
  · rw [h.line]; rfl
  · rw [h.pair]; rfl
  · rintro x ⟨k, -, hx⟩
    exact h.channelLeft k x hx

/-! ### The rows on a quiet state -/

/-- With no message in the CIQ a row of the Command Engine changes nothing (R23). -/
theorem State.quiet.command (h : s.quiet) (f : CommandForm) (body : Message → State → State × Reply) :
    s.command f body = s := by
  rw [State.command, h.nextMessage]

theorem State.quiet.execUnknownKind (h : s.quiet) : execUnknownKind s = .next s := by
  rw [Machine.execUnknownKind, h.nextMessage]

theorem State.quiet.execCountFilterAccept (h : s.quiet) (pins : BitVec 12) : execCountFilterAccept pins s = .next s := by
  rw [Machine.execCountFilterAccept, h.acceptCounts]
  refine congrArg Host.Outcome.next (List.foldl_fixed' (fun k => State.takeSteps_off ?_ _ _) _)
  rw [State.withInputs_chan, h.chan]; rfl

theorem State.quiet.execWindowEnd (h : s.quiet) (k : Fin 6) : execWindowEnd k s = .next s := by
  rw [Machine.execWindowEnd, h.windowDue]

/-- The rows of an instant: the occurrences of R32. -/
def Instr.isOccurrence : Instr → Bool
  | .tripInAssert | .overloadAssert _ | .supplyLoss | .pulseEnd _ | .gapEnd _ | .stallExpiry _ | .watchExpiry
  | .countFilterAccept _ | .dinFilterAccept _ | .windowEnd _ | .tripInRelease | .overloadRelease _ | .supplyReturn => true
  | _ => false

theorem next_of_not_due {p : Prop} [Decidable p] (h : ¬p) :
    (Host.Outcome.next (if p then t else s) : Host.Outcome State Fault Refusal) = .next s :=
  congrArg Host.Outcome.next (if_neg h)

/-- No occurrence is due, so none takes place. -/
theorem State.quiet.exec_occurrence (h : s.quiet) {c : Instr} (hc : Instr.isOccurrence c = true) : exec c s = .next s := by
  obtain ⟨htripIn, hovl, hsupply⟩ := h.asserts
  obtain ⟨htripIn', hovl', hsupply'⟩ := h.releases
  cases c
  case tripInAssert => exact next_of_not_due (by simp [htripIn])
  case overloadAssert b => exact next_of_not_due (by simp [hovl])
  case supplyLoss => exact next_of_not_due (by simp [hsupply])
  case pulseEnd n => exact next_of_not_due (by simp [h.line, Line.reset])
  case gapEnd j => exact next_of_not_due (by simp [h.pair, Pair.reset])
  case stallExpiry k => exact next_of_not_due (by simp [h.stallDue])
  case watchExpiry => exact next_of_not_due (by simp [h.watchLeft])
  case countFilterAccept pins => exact h.execCountFilterAccept pins
  case dinFilterAccept pins => exact next_of_not_due (by simp [h.dinDue])
  case windowEnd k => exact h.execWindowEnd k
  case tripInRelease => exact next_of_not_due (by simp [htripIn'])
  case overloadRelease b => exact next_of_not_due (by simp [hovl'])
  case supplyReturn => exact next_of_not_due (by simp [hsupply'])
  all_goals cases hc

/-- A word slot row leaves a quiet state quiet: its transaction is inert (R6), or CS_N is high. -/
theorem State.quiet.exec_slotRow (h : s.quiet) {w : Word} {index : BitVec 7} {phase : SlotPhase} {c : Instr}
    (hc : c ∈ slotRows w index phase) : ∃ t, exec c s = .next t ∧ t.quiet := by
  obtain ⟨x, m, hport, hm, hinert⟩ := h.port
  cases x with
  | none => exact ⟨s, exec_slotRow_idle (by rw [hport]) hc, h⟩
  | some t =>
    obtain ⟨hact, hslot⟩ := hinert t rfl
    obtain ⟨u, m', he, hends, hstays, huact, -, -, huslot⟩ :=
      notReadySlotsChangeNothing s t w index phase (by rw [hport]) hact hslot c hc
    have hm' : m'.silenced = m' := by
      obtain hend | hend := Classical.em _
      · rw [hends hend]; rfl
      · rw [hstays hend, hport]; exact hm
    refine ⟨_, he, ?_⟩
    rw [hport]
    exact h.withPort hm' (by rintro _ ⟨⟩; exact ⟨huact, huslot⟩)

theorem State.quiet.execTransactionStart (h : s.quiet) (hr : s.power.ready = false) (command : Option Byte) :
    ∃ t, execTransactionStart command s = .next t ∧ t.quiet := by
  obtain ⟨x, m, hport, -⟩ := h.port
  refine ⟨_, rfl, ?_⟩
  split
  · exact h
  · rw [hr, State.notReady_silent hr |>.1]
    show (s.withPort { s.port with transaction := some ⟨false, 0#8, command, .awaited, none⟩, miso := .byte 0#8 }).quiet
    rw [hport]
    exact h.withPort rfl (by rintro _ ⟨⟩; exact ⟨rfl, nofun⟩)

theorem State.quiet.execTransactionEnd (h : s.quiet) : ∃ t, execTransactionEnd s = .next t ∧ t.quiet := by
  obtain ⟨x, m, hport, -⟩ := h.port
  refine ⟨_, rfl, ?_⟩
  split
  next t _ =>
    have hlatch : { s.port.latchRefused t with transaction := none, miso := .highImpedance } = HostPort.reset := by
      rw [hport, HostPort.latchRefused]
      split <;> rfl
    show (s.withPort { s.port.latchRefused t with transaction := none, miso := .highImpedance }).quiet
    rw [hlatch]
    exact h.withPort (x := none) rfl nofun
  · exact h

theorem FilteredInput.change_notReady (i : FilteredInput) (level : Bool) : i.change false level = .at level := if_pos rfl

theorem State.quiet.setCountPin (h : s.quiet) (p : Fin 12) (level : Bool) : (s.setCountPin p (.at level)).quiet := by
  obtain ⟨hcount, hdin, hrestarted⟩ := h.inputs
  refine h.withInputs (FrontEnd.eq_afterReset_iff _ |>.mpr ⟨fun i => ?_, hdin, hrestarted⟩)
  have hset := State.countPin_setCountPin (s := s) p i (.at level)
  show (s.setCountPin p (.at level)).countPin i = ((s.setCountPin p (.at level)).countPin i).settle
  rw [hset]
  split
  · rfl
  · exact hcount i

theorem State.quiet.setDinPin (h : s.quiet) (n : Fin 8) (level : Bool) :
    (s.setDinPin n { s.dinPin n with input := .at level }).quiet := by
  obtain ⟨hcount, hdin, hrestarted⟩ := h.inputs
  have hn : s.dinPin n = ⟨(s.dinPin n).input.settle, 2#2, false⟩ := hdin n
  refine h.withInputs (FrontEnd.eq_afterReset_iff _ |>.mpr ⟨hcount, fun i => ?_, hrestarted⟩)
  have hset := State.dinPin_setDinPin (s := s) n i { s.dinPin n with input := .at level }
  show (s.setDinPin n { s.dinPin n with input := .at level }).dinPin i =
    ⟨((s.setDinPin n { s.dinPin n with input := .at level }).dinPin i).input.settle, 2#2, false⟩
  rw [hset]
  split
  · rw [hn]; rfl
  · exact hdin i

theorem State.quiet.execSafetyInputChange (h : s.quiet) (hr : s.power.ready = false) (pin : SafetyPin) (level : Bool) :
    ∃ t, execSafetyInputChange pin level s = .next t ∧ t.quiet := by
  obtain ⟨htripIn, hovl, hsupply⟩ := h.safety
  have changed : ∀ i : SafetyInput, i = ⟨i.input.settle, false⟩ → i.change s.power.ready level = ⟨.at level, false⟩ :=
    fun i hi => by rw [SafetyInput.change, hr, FilteredInput.change_notReady, hi]
  refine ⟨_, rfl, ?_⟩
  cases pin with
  | tripIn =>
    refine h.withSafety (SafetyInputs.eq_afterReset_iff _ |>.mpr ⟨?_, hovl, hsupply⟩)
    rw [changed _ htripIn]; rfl
  | ovl b =>
    refine h.withSafety (SafetyInputs.eq_afterReset_iff _ |>.mpr ⟨htripIn, fun i => ?_, hsupply⟩)
    rw [changed _ (hovl b)]
    simp only [Fin.getElem_fin, Vector.getElem_set]
    split
    · rfl
    · exact hovl i
  | supplyOk =>
    refine h.withSafety (SafetyInputs.eq_afterReset_iff _ |>.mpr ⟨htripIn, hovl, ?_⟩)
    rw [changed _ hsupply]; rfl

/-- Every reset leaves a quiet state (R187, R190). -/
theorem State.powerOnValues_quiet (s : State) (p : Power) : (s.powerOnValues p).quiet := by
  refine ⟨?_, fun t ht => ?_, rfl, rfl, rfl, rfl, rfl, rfl, rfl, rfl, rfl⟩
  · simp [State.powerOnValues, Miso.silenced_silenced]
  · obtain ⟨u, -, rfl⟩ := Option.map_eq_some_iff.mp ht
    exact ⟨rfl, nofun⟩

/-! ### Every row -/

theorem exec_powerRow_quiet {c : Instr} (hc : Instr.isPowerRow c = true) (h : s.quietUnlessReady) (he : exec c s = .next t) :
    t.quietUnlessReady := by
  cases c <;> cases hc <;> cases he
  case powerOnReset | rstnReset | vddLoss => exact fun _ => s.powerOnValues_quiet _
  case rstnRelease =>
    intro hr
    refine h (Eq.trans ?_ hr)
    rw [State.withPower_power, Power.releaseRstn]
    split <;> rfl
  case initialisationComplete =>
    split
    · exact nofun
    · exact h

/-- A row of the port, of the pins or of an instant leaves a quiet state quiet. -/
theorem State.quiet.exec_outsideEngine (h : s.quiet) (hr : s.power.ready = false) {c : Instr} (hc : engineCommand c = none)
    (hu : c ≠ .unknownKind) (hp : Instr.isPowerRow c = false) : ∃ t, exec c s = .next t ∧ t.quiet := by
  cases ho : Instr.isOccurrence c with
  | true => exact ⟨s, h.exec_occurrence ho, h⟩
  | false =>
    cases c
    case unknownKind => exact absurd rfl hu
    case transactionStart b => exact h.execTransactionStart hr b
    case transactionEnd => exact h.execTransactionEnd
    case countInputChange p level =>
      refine ⟨_, rfl, ?_⟩
      rw [hr]; exact h.setCountPin p level
    case dinChange n level =>
      refine ⟨_, rfl, ?_⟩
      rw [hr]; exact h.setDinPin n level
    case safetyInputChange pin level => exact h.execSafetyInputChange hr pin level
    case popHead phase | popBody phase | linkCountsRead phase =>
      exact h.exec_slotRow (w := 0#32) (index := 0#7) (phase := phase) (by simp [slotRows])
    case ignoredRegisterWrite index w => exact h.exec_slotRow (w := w) (index := index) (phase := .opens) (by simp [slotRows])
    case pushHead w | pushBody w | discardAssembly w | discardCiq w | discardRnq w | clearFramingSticky w
        | clearNoticeLostSticky w | attnMaskWrite w =>
      exact h.exec_slotRow (w := w) (index := 0#7) (phase := .opens) (by simp [slotRows])
    all_goals contradiction

theorem execUnknownKind_power (he : execUnknownKind s = .next t) : t.power = s.power := by
  cases he
  split
  · split <;> rfl
  · rfl

/-- The supply, the reset and ready change at the rows of power and reset alone (R6, R187). -/
theorem exec_power {c : Instr} (hp : Instr.isPowerRow c = false) (he : exec c s = .next t) : t.power = s.power := by
  obtain ⟨f, body, hc⟩ | rfl | hc | ⟨u, hu, hkeeps⟩ := exec_cases c s
  · rw [exec_engineCommand hc] at he
    cases he
    exact State.command_power (engineCommand_answers hc) s
  · exact execUnknownKind_power he
  · exact absurd hc (by simp [hp])
  · rw [hu] at he
    cases he
    exact hkeeps.power

/-- Every row but those of power and reset leaves a quiet state quiet. -/
theorem State.quiet.exec (h : s.quiet) (hr : s.power.ready = false) {c : Instr} (hp : Instr.isPowerRow c = false)
    (he : exec c s = .next t) : t.quiet := by
  cases hc : engineCommand c with
  | some x =>
    rw [exec_engineCommand hc, h.command] at he
    cases he
    exact h
  | none =>
    by_cases hu : c = .unknownKind
    · rw [hu] at he
      obtain rfl : s = t := by cases h.execUnknownKind.symm.trans he; rfl
      exact h
    · obtain ⟨u, hu, hquiet⟩ := h.exec_outsideEngine hr hc hu hp
      rw [hu] at he
      cases he
      exact hquiet

/-- What a part that is not ready does by itself: initialisation ends when it may, and nothing else comes (R187). -/
theorem State.quiet.goOn (h : s.quiet) : s.goOn.quiet := by
  have hended : s.endInstant = s := by
    rw [State.endInstant, FrontEnd.endInstant, ← h.inputs.2.2, ← h.instant]; rfl
  have htake : s.engineMayTake = false := by
    obtain ⟨x, m, hport, -⟩ := h.port
    rw [State.engineMayTake, hport]; rfl
  rw [State.goOn, hended, State.proceed]
  split
  · exact h
  · rw [htake, State.passTime, h.untilDue]
    simpa using h

/-- Settles O56: from a ready part only a reset leads to ready 0, and a quiet part stays quiet at every row. -/
theorem notReadyMeansPowerOnValues : Obligations.NotReadyMeansPowerOnValues := by
  intro s t h hstep
  obtain ⟨c, rest, -, he⟩ | ⟨-, rfl⟩ := step_cases hstep
  · have hs : (s.withPending rest).quietUnlessReady := h
    cases hp : Instr.isPowerRow c with
    | true => exact exec_powerRow_quiet hp hs he
    | false =>
      intro hr
      rw [exec_power hp he] at hr
      exact (hs hr).exec hr hp he
  · intro hr
    rw [s.goOn_queues.power] at hr
    exact (h hr).goOn

end Sys2Proof.Machine
end

section
/-! The Command Engine: the front of the queue, the headers and their refusals, the heads of replies, and the commands
that read (R19 to R23, R34 to R36). -/

namespace Sys2Proof.Machine

variable {s : State} {m : Message} {rest : List Message}

/-! ### The queue and the rows of the Command Engine -/

/-- Settles O1, by the first equation of step. -/
theorem stepRunsFrontCommand : Obligations.StepRunsFrontCommand := by
  intro c rest s h
  rw [step, h]
  rfl

/-- The forms of section 2.8 are those of the rows that check a header. -/
theorem engineCommand_of_form {p : Instr × CommandForm} (hp : p ∈ commandForms) :
    ∃ body, engineCommand p.1 = some (p.2, body) := by
  have forms : ∀ p ∈ commandForms, (engineCommand p.1).map Prod.fst = some p.2 := by decide
  obtain ⟨x, hx, hform⟩ := Option.map_eq_some_iff.mp (forms p hp)
  exact ⟨x.2, by rw [hx, ← hform]⟩

/-- With no message of its kind to take, a command row has no step. -/
theorem State.command_waits {f : CommandForm} (body : Message → State → State × Reply)
    (h : ∀ m rest, s.takes m rest → headKind m.head ≠ f.kind) : s.command f body = s := by
  obtain hsame | ⟨m, rest, ht, hk, -⟩ := s.command_cases f body
  · exact hsame
  · exact absurd hk (h m rest ht)

/-- Settles O16: in each of the three cases no message of the row's kind can be taken. -/
theorem commandRowsWaitForTheirMessage : Obligations.CommandRowsWaitForTheirMessage := by
  intro s p hp hwaits
  obtain ⟨body, hc⟩ := engineCommand_of_form hp
  rw [exec_engineCommand hc, State.command_waits body]
  rintro m rest ⟨hciq, hroom⟩
  obtain hempty | hfull | ⟨m', rest', hciq', hkind⟩ := hwaits
  · rw [hempty] at hciq; cases hciq
  · exact absurd hroom (Nat.not_lt.mpr hfull)
  · rw [hciq] at hciq'; cases hciq'; exact hkind

/-! ### The checks of R21 -/

/-- The channel fields that a form refuses (section 2.8). -/
def ChannelForm.refuses (f : ChannelForm) (channel : BitVec 4) : Bool :=
  match f with
  | .device => channel != 15#4
  | .channel => decide (6 ≤ channel.toNat)

theorem ChannelForm.refuses_eq (f : ChannelForm) (m : Message) : f.refuses (headChannel m.head) = !f.accepts m := by
  cases f with
  | device => rfl
  | channel =>
    rw [ChannelForm.refuses, ChannelForm.accepts, Message.channel?]
    split <;> simp only [Option.isSome_some, Option.isSome_none, decide_eq_true_eq, decide_eq_false_iff_not, Bool.not_true,
      Bool.not_false] <;> omega

/-- The checks of R21 steps 2 to 5 as one chain of Boolean tests. -/
theorem CommandForm.refusal_eq (f : CommandForm) (level : BitVec 2) (m : Message) : f.refusal level m =
    if f.length.any (· != m.body.length) then some .badLength
    else if f.channel.refuses (headChannel m.head) then some .badChannel
    else if headModifier m.head &&& ~~~f.modifierMask != 0#9 then some .badValue
    else if f.sealedFrom.any (· ≤ level.toNat) then some .sealed
    else none := by
  simp [CommandForm.refusal, ChannelForm.refuses_eq]

/-- A message of an assigned kind that fails a check is refused, and nothing else happens (R21, R67). -/
theorem exec_of_refused {p : Instr × CommandForm} {code : ResultCode} (hp : p ∈ commandForms) (h : s.takes m rest)
    (hk : headKind m.head = p.2.kind) (hr : p.2.refusal s.sealLevel m = some code) :
    exec p.1 s = .next (s.answered m rest code p.2.refusalBody) := by
  obtain ⟨body, hc⟩ := engineCommand_of_form hp
  rw [exec_engineCommand hc, State.command_of_takes h hk, State.execute_of_refused hr]

/-- Settles O15: the table is the model's, and the header is refused by the first check that fails. -/
theorem headerChecksRefuseInOrder : Obligations.HeaderChecksRefuseInOrder := by
  refine ⟨rfl, rfl, fun s m rest h => ⟨fun hkind => ?_, fun p hp hk => ?_⟩⟩
  · show execUnknownKind s = _
    rw [execUnknownKind, State.nextMessage_of_takes h]
    exact congrArg _ (if_neg hkind)
  · have refusal := p.2.refusal_eq s.sealLevel m
    refine ⟨fun h1 => ?_, fun h1 h2 => ?_, fun h1 h2 h3 => ?_, fun h1 h2 h3 h4 => ?_⟩
    · exact exec_of_refused hp h hk (refusal.trans (if_pos h1))
    all_goals replace refusal := refusal.trans (if_neg (Bool.eq_false_iff.mp h1))
    · exact exec_of_refused hp h hk (refusal.trans (if_pos h2))
    all_goals replace refusal := refusal.trans (if_neg (Bool.eq_false_iff.mp h2))
    · exact exec_of_refused hp h hk (refusal.trans (if_pos h3))
    · replace refusal := refusal.trans (if_neg (Bool.eq_false_iff.mp h3))
      exact exec_of_refused hp h hk (refusal.trans (if_pos h4))

/-! ### Replies -/

/-- Settles O17: the fields of a head read back, and PING passes its header at every length. -/
theorem repliesEchoTagAndChannel : Obligations.RepliesEchoTagAndChannel := by
  refine ⟨rfl, fun m code body hlen => ?_, fun s m rest h hm => ?_⟩
  · refine ⟨headKind_makeHead .., headTag_makeHead .., headChannel_makeHead .., ?_, headModifier_makeHead .., rfl⟩
    have whole : (replyMessage m ⟨code, body⟩).whole := replyMessage_whole hlen
    exact whole.symm
  · rw [exec_engineCommand (c := .ping) rfl, State.command_device h hm rfl rfl (by exact nofun) (by exact nofun)]
    rfl

/-! ### The commands that read -/

/-- The bodies of the commands that read, after the taking of a message: none reads the queues' reservation. -/
theorem State.readBodies_takeMessage (s : State) (rest : List Message) (k : Fin 6) :
    (s.takeMessage rest).identifyBody = s.identifyBody ∧ (s.takeMessage rest).readStatusBody = s.readStatusBody
      ∧ (s.takeMessage rest).readInputsBody = s.readInputsBody ∧ (s.takeMessage rest).readLinesBody = s.readLinesBody
      ∧ (s.takeMessage rest).readTripBody = s.readTripBody ∧ (s.takeMessage rest).readChannelBody k = s.readChannelBody k
      ∧ (s.takeMessage rest).readRateBody k = s.readRateBody k :=
  ⟨rfl, rfl, rfl, rfl, rfl, rfl, rfl⟩

/-- A device-wide command that only reads answers DONE with its body. -/
theorem exec_reads_device {c : Instr} {kind : Byte} {body : State → List Word}
    (hc : engineCommand c = some (.device kind 0, fun _ t => answer body t)) (h : s.takes m rest)
    (hbody : m.body = []) (hm : m.isCommand kind 15#4 0#9) :
    exec c s = .next (s.answered m rest .done (body (s.takeMessage rest))) := by
  rw [exec_engineCommand hc, State.command_device h hm rfl rfl (by simp [CommandForm.device, hbody]) (by exact nofun)]
  rfl

/-- A command that reads channel k, on the message that it requires. -/
theorem exec_reads_channel {c : Instr} {f : CommandForm} {body : Message → State → State × Reply} {k : Fin 6} {x : BitVec 9}
    (hc : engineCommand c = some (f, body)) (hlen : f.length = some 0) (hchannel : f.channel = .channel)
    (hseal : f.sealedFrom = none) (hx : x &&& ~~~f.modifierMask = 0#9) (h : s.takes m rest) (hbody : m.body = [])
    (hm : m.isCommand f.kind (channelField k) x) :
    exec c s = .next ((body m (s.takeMessage rest)).1.admitReply m (body m (s.takeMessage rest)).2) := by
  rw [exec_engineCommand hc, State.command_channel h hm rfl hchannel hx (by simp [hlen, hbody]) (by simp [hseal])]

/-- Settles O19: each header passes, and each body reads the state that the taking of the message leaves. -/
theorem readCommandsOnlyAnswer : Obligations.ReadCommandsOnlyAnswer := by
  intro s m rest k h hbody
  obtain ⟨hidentify, hstatus, hinputs, hlines, htrip, hchannel, hrate⟩ := s.readBodies_takeMessage rest k
  have number : ∀ {kind x}, m.isCommand kind (channelField k) x → m.channelNumber = k := fun hm =>
    Message.channelNumber_of_field hm.2.1
  refine ⟨fun hm => ?_, fun hm => ?_, fun hm => ?_, fun hm => ?_, fun hm => ?_, fun hm => ?_, fun hm => ?_, fun hm => ?_,
    fun hstate => ⟨fun x hx hm => ?_, fun hm => ?_⟩, fun hstate => ⟨fun x hx hm => ?_, fun hm => ?_⟩⟩
  · rw [exec_reads_device (c := .identify) (body := State.identifyBody) rfl h hbody hm, hidentify]
  · rw [exec_reads_device (c := .readStatus) (body := State.readStatusBody) rfl h hbody hm, hstatus]
  · rw [exec_reads_device (c := .readInputs) (body := State.readInputsBody) rfl h hbody hm, hinputs]
  · have hset : (s.chan k).selectedSet m = (s.chan k).staged := by
      simp [Channel.selectedSet, hm.2.2]
    rw [exec_reads_channel (c := .readConfig) rfl rfl rfl rfl (by decide) h hbody hm]
    simp only [number hm, answer, hset, State.takeMessage_chan]
    rfl
  · have hset : (s.chan k).selectedSet m = (s.chan k).active := by
      simp [Channel.selectedSet, hm.2.2]
    rw [exec_reads_channel (c := .readConfig) rfl rfl rfl rfl (by decide) h hbody hm]
    simp only [number hm, answer, hset, State.takeMessage_chan]
    rfl
  · rw [exec_reads_channel (c := .readChannel) rfl rfl rfl rfl (by decide) h hbody hm]
    simp only [number hm, answer, hchannel]
    rfl
  · rw [exec_reads_device (c := .readLines) (body := State.readLinesBody) rfl h hbody hm, hlines]
  · rw [exec_reads_device (c := .readTrip) (body := State.readTripBody) rfl h hbody hm, htrip]
  · rw [exec_reads_channel (c := .readMarks) rfl rfl rfl rfl (by exact hx) h hbody hm]
    simp only [number hm, answer, State.takeMessage_chan, if_neg hstate]
    rfl
  · rw [exec_reads_channel (c := .readRate) rfl rfl rfl rfl (by decide) h hbody hm]
    simp only [number hm, answer, hrate, State.takeMessage_chan, if_neg hstate]
    rfl
  · rw [exec_reads_channel (c := .readMarks) rfl rfl rfl rfl (by exact hx) h hbody hm]
    simp only [number hm, State.takeMessage_chan, if_pos hstate]
    rfl
  · rw [exec_reads_channel (c := .readRate) rfl rfl rfl rfl (by decide) h hbody hm]
    simp only [number hm, State.takeMessage_chan, if_pos hstate]
    rfl

end Sys2Proof.Machine
end

section
/-! What waits: every row leaves the queue of waiting commands, and every command but ENGINE_RESET leaves the messages
that wait behind its own (R23, R32, R189). -/

namespace Sys2Proof.Machine

variable {s t u : State} {m : Message}

/-! ### The commands and the messages that wait -/

/-- From s to t the waiting commands and the committed messages of the CIQ are as they were. -/
structure State.KeepsWaiting (s t : State) : Prop where
  pending : t.pending = s.pending
  ciq : t.port.ciq = s.port.ciq

theorem State.KeepsWaiting.refl (s : State) : s.KeepsWaiting s := ⟨rfl, rfl⟩

theorem State.KeepsWaiting.trans (h : s.KeepsWaiting t) (h' : t.KeepsWaiting u) : s.KeepsWaiting u :=
  ⟨h'.pending.trans h.pending, h'.ciq.trans h.ciq⟩

theorem State.KeepsWaiting.ite {c : Prop} [Decidable c] (ht : c → s.KeepsWaiting t) (hu : ¬c → s.KeepsWaiting u) :
    s.KeepsWaiting (if c then t else u) := by
  split
  · exact ht ‹_›
  · exact hu ‹_›

theorem State.KeepsWaiting.fold {α : Type} {f : State → α → State} (hf : ∀ (s : State) (a : α), s.KeepsWaiting (f s a))
    (l : List α) : ∀ s : State, s.KeepsWaiting (l.foldl f s) := by
  induction l with
  | nil => exact .refl
  | cons a l ih => exact fun s => (hf s a).trans (ih _)

theorem State.KeepsWaiting.modChan (s : State) (k : Fin 6) (f : Channel → Channel) : s.KeepsWaiting (s.modChan k f) :=
  ⟨rfl, rfl⟩

/-- What a channel does of itself leaves both queues. -/
theorem State.RunFrame.keepsWaiting {k : Fin 6} (h : s.RunFrame k t) : s.KeepsWaiting t :=
  ⟨by rw [h.fields], by rw [h.notifies.1]⟩

/-- The outcome of a body keeps what each of its alternatives keeps. -/
theorem State.KeepsWaiting.fst_ite {c : Prop} [Decidable c] {x y : State × Reply} (hx : c → s.KeepsWaiting x.1)
    (hy : ¬c → s.KeepsWaiting y.1) : s.KeepsWaiting (if c then x else y).1 := by
  split
  · exact hx ‹_›
  · exact hy ‹_›

/-! ### Chapters 3 to 7 -/

theorem State.setInputs_waiting (m : Message) (s : State) : s.KeepsWaiting (s.setInputs m).1 := by
  have settled : ∀ f, s.KeepsWaiting (s.withInputs f) := fun f => ⟨rfl, rfl⟩
  exact .fst_ite (fun _ => .refl s) fun _ => (settled _).trans (.fold (fun t k => .modChan t k _) _ _)

theorem State.stage_waiting (s : State) (k : Fin 6) (write : ChannelConfig → Option ChannelConfig) :
    s.KeepsWaiting (s.stage k write).1 := by
  refine .fst_ite (fun _ => .refl s) fun _ => ?_
  split
  · exact ⟨rfl, rfl⟩
  · exact .refl s

theorem State.applyCommit_waiting (s : State) (k : Fin 6) : s.KeepsWaiting (s.applyCommit k) := by
  unfold State.applyCommit
  cases (s.chan k).disposition with
  | untouched => exact .refl s
  | copied =>
    have releases : ∀ (t : State) (p : Prop) [Decidable p], t.KeepsWaiting (if p then t.releaseLines k else t) :=
      fun t _ _ => .ite (fun _ => (State.RunFrame.releaseLines k k t).keepsWaiting) fun _ => .refl t
    exact (((s.copyStaged_cases k).1.keepsWaiting.trans (.modChan _ k _)).trans (releases _ _)).trans (.modChan _ k _)
  | halted =>
    exact (((s.endRun_frame k).keepsWaiting.trans (.modChan _ k _)).trans
      (State.copyStaged_cases _ k).1.keepsWaiting).trans (.modChan _ k _)
  | left => exact .modChan s k _

theorem State.settlePartner_waiting (s : State) (k : Fin 6) : s.KeepsWaiting (s.settlePartner k) :=
  .ite (fun _ => .modChan s _ _) fun _ => .ite (fun _ => .modChan s _ _) fun _ => .refl s

theorem State.commit_waiting (m : Message) (s : State) : s.KeepsWaiting (s.commit m).1 := by
  refine .fst_ite (fun _ => .refl s) fun _ => ?_
  split
  · exact .refl s
  · exact (State.KeepsWaiting.fold State.applyCommit_waiting _ s).trans (.fold State.settlePartner_waiting _ _)

theorem State.start_waiting (m : Message) (s : State) : s.KeepsWaiting (s.start m).1 :=
  .fst_ite (fun _ => .refl s) fun _ => .fst_ite (fun _ => .fold (fun t k => .modChan t k _) _ s) fun _ => .refl s

theorem State.restart_waiting (m : Message) (s : State) : s.KeepsWaiting (s.restart m).1 :=
  .fst_ite (fun _ => .refl s) fun _ => .fst_ite (fun _ => .fold (fun t k => .modChan t k _) _ s) fun _ => .refl s

theorem perChannel_waiting {act : State → Fin 6 → State} (h : ∀ (s : State) (k : Fin 6), s.KeepsWaiting (act s k))
    (legal : State → Fin 6 → Bool) (m : Message) (s : State) : s.KeepsWaiting (perChannel legal act m s).1 :=
  .fst_ite (fun _ => .refl s) fun _ => .fold h _ s

theorem State.haltChannel_waiting (s : State) (k : Fin 6) : s.KeepsWaiting (s.haltChannel k) := by
  have leaves : ∀ (t : State) (f : Option ChannelFault), t.KeepsWaiting (t.leaveFaulted k f) := fun t f => by
    cases f <;> exact ⟨rfl, rfl⟩
  exact (((s.endRun_frame k).keepsWaiting.trans (.modChan _ k _)).trans (leaves _ _)).trans
    (State.pendingCopy_frame _ k).keepsWaiting

/-! ### Chapter 8 -/

theorem State.setOwner_waiting (s : State) (n : Fin 12) (o : Owner) : s.KeepsWaiting (s.setOwner n o) :=
  .ite (fun _ => ⟨rfl, rfl⟩) fun _ => ⟨rfl, rfl⟩

theorem State.bindLine_waiting (m : Message) (s : State) : s.KeepsWaiting (s.bindLine m).1 := by
  unfold State.bindLine
  split
  · exact .fst_ite (fun _ => .fst_ite (fun _ => .refl s) fun _ => .fst_ite (fun _ => .refl s) fun _ =>
      .fst_ite (fun _ => .refl s) fun _ => .fst_ite (fun _ => .refl s) fun _ => s.setOwner_waiting _ _) fun _ => .refl s
  · exact .refl s

theorem State.unbind_waiting (s : State) (n : Fin 12) : s.KeepsWaiting (s.unbind n) := by
  have cleared : s.KeepsWaiting ((s.setOwner n .nobody).clearLine n) := (s.setOwner_waiting n .nobody).trans ⟨rfl, rfl⟩
  exact .ite (fun _ => cleared.trans ⟨rfl, rfl⟩) fun _ => cleared

theorem State.unbindLine_waiting (m : Message) (s : State) : s.KeepsWaiting (s.unbindLine m).1 := by
  unfold State.unbindLine
  split
  · exact .fst_ite (fun _ => .fst_ite (fun _ => .refl s) fun _ => .fst_ite (fun _ => .refl s) fun _ =>
      .fst_ite (fun _ => .refl s) fun _ => .fst_ite (fun _ => .refl s) fun _ => s.unbind_waiting _) fun _ => .refl s
  · exact .refl s

theorem State.shapeLine_waiting (m : Message) (s : State) : s.KeepsWaiting (s.shapeLine m).1 := by
  unfold State.shapeLine
  split
  · exact .fst_ite (fun _ => .fst_ite (fun _ => .refl s) fun _ => .fst_ite (fun _ => .refl s) fun _ => ⟨rfl, rfl⟩)
      fun _ => .refl s
  · exact .refl s

theorem State.repair_waiting (s : State) (j : Fin 6) (pairing : Bool) (gap : Byte) :
    s.KeepsWaiting (s.repair j pairing gap) := by
  unfold State.repair State.pairUp
  split
  · exact .ite (fun _ => ⟨rfl, rfl⟩) fun _ => ⟨rfl, rfl⟩
  · exact ⟨rfl, rfl⟩
  · exact ⟨rfl, rfl⟩
  · exact .refl s

theorem State.shapePair_waiting (m : Message) (s : State) : s.KeepsWaiting (s.shapePair m).1 := by
  unfold State.shapePair
  split
  · exact .fst_ite (fun _ => .fst_ite (fun _ => .refl s) fun _ => .fst_ite (fun _ => .refl s) fun _ =>
      .fst_ite (fun _ => .refl s) fun _ => .fst_ite (fun _ => .refl s) fun _ => s.repair_waiting _ _ _) fun _ => .refl s
  · exact .refl s

theorem State.driveLines_waiting (m : Message) (s : State) : s.KeepsWaiting (s.driveLines m).1 := by
  have drives := (s.driveLines_cases (m.word 0)).1
  exact .fst_ite (fun _ => .refl s) fun _ => ⟨by rw [completed, drives], by rw [completed, drives]⟩

/-! ### Chapters 9 and 10 -/

theorem State.setTrip_waiting (m : Message) (s : State) : s.KeepsWaiting (s.setTrip m).1 := by
  unfold State.setTrip
  split
  · exact .fst_ite (fun _ => .refl s) fun _ => ⟨rfl, rfl⟩
  · exact .refl s

/-- An occurrence with its withdrawal leaves both queues; the channel of the frame plays no part. -/
theorem State.causeAsserts_waiting (s : State) (source : LedgerSource) (kind : LedgerKind) (present enabled : Bool)
    (trip : TripSource) : s.KeepsWaiting (s.causeAsserts source kind present enabled trip) :=
  (s.faultOccurrence_frame 0 _ _ _).keepsWaiting.trans (State.withdrawIf_frame _ 0 _ _).keepsWaiting

theorem State.resume_waiting (s : State) : s.KeepsWaiting s.resume.1 :=
  .fst_ite (fun _ => .refl s) fun hp => .fst_ite (fun _ => .refl s) fun _ => (s.grant_frame 0 none hp).keepsWaiting

theorem State.ackFault_waiting (s : State) : s.KeepsWaiting s.ackFault.1 :=
  .fst_ite (fun _ => .refl s) fun _ => ⟨rfl, rfl⟩

theorem State.raiseSeal_waiting (s : State) (level : BitVec 2) : s.KeepsWaiting (s.raiseSeal level).1 :=
  .fst_ite (fun _ => .refl s) fun _ => ⟨rfl, rfl⟩

/-- ENGINE_RESET leaves the waiting commands and empties the CIQ (R189). -/
theorem State.engineReset_waiting (s : State) : s.engineReset.pending = s.pending ∧ s.engineReset.port.ciq = [] := by
  have handed : ∀ x : TripUnit, s.KeepsWaiting (s.withTrip x) := fun x => ⟨rfl, rfl⟩
  have stands : ∀ (t : State) (k : Fin 6), t.KeepsWaiting (t.standChannel k) := fun t k => ⟨rfl, rfl⟩
  have fresh : ∀ (t : State) (x : Vector Channel 6), t.KeepsWaiting (t.withChannels x) := fun t x => ⟨rfl, rfl⟩
  have resets : s.KeepsWaiting s.resetChannels :=
    (((handed _).trans (.fold stands channelNumbers _)).trans (fresh _ _)).trans (State.refilter_cases s _ 0).1.keepsWaiting
  have tables : ∀ (t : State) (x : LineMatrix), t.KeepsWaiting (t.withMatrix x) := fun t x => ⟨rfl, rfl⟩
  have dins : ∀ (t : State) (x : FrontEnd), t.KeepsWaiting (t.withInputs x) := fun t x => ⟨rfl, rfl⟩
  have trips : ∀ (t : State) (x : TripUnit), t.KeepsWaiting (t.withTrip x).recomputeTripIn := fun t x => ⟨rfl, rfl⟩
  have emptied : ∀ (u : State) (x : Outbox), ((u.withPort u.port.engineReset).withOut x).pending = u.pending
      ∧ ((u.withPort u.port.engineReset).withOut x).port.ciq = [] := fun u x => ⟨rfl, rfl⟩
  exact ⟨((emptied _ _).1).trans (((resets.trans (tables _ _)).trans (dins _ _)).trans (trips _ _)).pending, (emptied _ _).2⟩

/-! ### Every command -/

variable {c : Instr} {f : CommandForm} {body : Message → State → State × Reply}

/-- The body of every command but ENGINE_RESET leaves both queues. -/
theorem engineCommand_keepsWaiting (h : engineCommand c = some (f, body)) (hreset : c ≠ .engineReset) (m : Message)
    (s : State) : s.KeepsWaiting (body m s).1 := by
  cases c <;> cases h
  case engineReset => exact absurd rfl hreset
  case ping | identify | readStatus | readInputs | readConfig | readChannel | readLines | readTrip => exact .refl s
  case setInputs => exact s.setInputs_waiting m
  case stageMode | stageTargets | stageTerms | stageGuard | stageMark | clearMarks => exact s.stage_waiting _ _
  case commit => exact s.commit_waiting m
  case readMarks | readRate => exact .fst_ite (fun _ => .refl s) fun _ => .refl s
  case readCaptures => exact .fst_ite (fun _ => .refl s) fun _ => .modChan s _ _
  case start => exact s.start_waiting m
  case restart => exact s.restart_waiting m
  case quench => exact perChannel_waiting (fun t k => (t.enterQuenched_frame k).keepsWaiting) _ m s
  case halt => exact perChannel_waiting State.haltChannel_waiting _ m s
  case bindLine => exact s.bindLine_waiting m
  case unbindLine => exact s.unbindLine_waiting m
  case shapeLine => exact s.shapeLine_waiting m
  case shapePair => exact s.shapePair_waiting m
  case driveLines => exact s.driveLines_waiting m
  case setTrip => exact s.setTrip_waiting m
  case trip => exact s.causeAsserts_waiting _ _ _ _ _
  case resume => exact s.resume_waiting
  case readFaults => exact ⟨rfl, rfl⟩
  case ackFault => exact s.ackFault_waiting
  case sealRaise => exact s.raiseSeal_waiting _

/-- The body of every command leaves the waiting commands, and leaves the messages that wait or discards them all. -/
theorem engineCommand_waiting (h : engineCommand c = some (f, body)) (m : Message) (s : State) :
    (body m s).1.pending = s.pending ∧ ((body m s).1.port.ciq = s.port.ciq ∨ (body m s).1.port.ciq = []) := by
  by_cases hreset : c = .engineReset
  · subst hreset
    cases h
    exact ⟨s.engineReset_waiting.1, .inr s.engineReset_waiting.2⟩
  · have keeps := engineCommand_keepsWaiting h hreset m s
    exact ⟨keeps.pending, .inl keeps.ciq⟩

end Sys2Proof.Machine
end

section
/-! Every row answers a next state and leaves the queue of waiting commands as it is (R6, R32). -/

namespace Sys2Proof.Machine

variable {s t : State}

/-! ### Word slots and transactions (R4 to R16) -/

theorem State.writeSlot_pending {act : Transaction → State → State} (h : ∀ (t : Transaction) (s : State), (act t s).pending = s.pending)
    (s : State) (index : BitVec 7) : (s.writeSlot index act).pending = s.pending := by
  unfold State.writeSlot
  split
  · split
    · split
      · exact h _ _
      · rfl
    · rfl
  · rfl

theorem State.firstWord_pending {act : State → State} (h : ∀ s : State, (act s).pending = s.pending) (t : Transaction)
    (s : State) : (State.firstWord act t s).pending = s.pending := by
  unfold State.firstWord
  split
  · exact h _
  · rfl

theorem State.bitSlot_pending {act : State → State} (h : ∀ s : State, (act s).pending = s.pending) (s : State)
    (index : BitVec 7) (w : Word) (b : Nat) : (s.bitSlot index w b act).pending = s.pending := by
  unfold State.bitSlot
  split
  · refine State.writeSlot_pending (fun t s => ?_) s index
    unfold State.firstWordBit
    split
    · split
      · exact h _
      · rfl
    · rfl
  · rfl

/-- The end of a read slot leaves the waiting commands when what the register does at its end leaves them. -/
theorem State.readSlot_pending {finish : State → SlotOutcome → State}
    (h : ∀ (s : State) (o : SlotOutcome), (finish s o).pending = s.pending) (s : State) (index : BitVec 7) (phase : SlotPhase)
    (decide : Transaction → State → Slot) : (s.readSlot index phase decide finish).pending = s.pending := by
  unfold State.readSlot
  split
  · split
    · simp only
      split
      · rfl
      · rfl
      · exact h _ _
    · rfl
  · rfl

theorem State.assemble_pending (s : State) (m : Message) : (s.assemble m).pending = s.pending := by
  unfold State.assemble
  split
  · rw [State.commitMessage_eq]; rfl
  · rfl

theorem State.pushHead_pending (w : Word) (s : State) : (s.pushHead w).pending = s.pending := by
  unfold State.pushHead
  split
  · rfl
  · rw [State.assemble_pending]
    split <;> rfl

theorem State.pushBody_pending (w : Word) (s : State) : (s.pushBody w).pending = s.pending := by
  unfold State.pushBody
  split
  · exact State.assemble_pending _ _
  · rfl

theorem State.finishPopHead_pending (s : State) (o : SlotOutcome) : (s.finishPopHead o).pending = s.pending := by
  unfold State.finishPopHead
  split
  · rfl
  · rfl
  · split <;> rfl

theorem State.finishPopBody_pending (s : State) (o : SlotOutcome) : (s.finishPopBody o).pending = s.pending := by
  cases o <;> rfl

theorem State.finishLinkCounts_pending (s : State) (o : SlotOutcome) : (s.finishLinkCounts o).pending = s.pending := by
  cases o <;> rfl

/-! ### Every row -/

/-- A row that acts when its occurrence is due leaves the waiting commands when its act does. -/
theorem pending_ite {c : Prop} [Decidable c] (h : c → t.pending = s.pending) :
    (if c then t else s).pending = s.pending := by
  split
  · exact h ‹_›
  · rfl

/-- The rows of the Host Port, of power and reset, of the pins and of an instant leave the waiting commands. -/
theorem exec_outsideEngine_pending {c : Instr} (hc : engineCommand c = none) (s : State) :
    ∃ t, exec c s = .next t ∧ t.pending = s.pending := by
  cases c
  case pushHead w => exact ⟨_, rfl, s.writeSlot_pending (fun _ => State.pushHead_pending w) _⟩
  case pushBody w => exact ⟨_, rfl, s.writeSlot_pending (fun _ => State.pushBody_pending w) _⟩
  case popHead p => exact ⟨_, rfl, State.readSlot_pending State.finishPopHead_pending s _ p _⟩
  case popBody p => exact ⟨_, rfl, State.readSlot_pending State.finishPopBody_pending s _ p _⟩
  case linkCountsRead p => exact ⟨_, rfl, State.readSlot_pending State.finishLinkCounts_pending s _ p _⟩
  case discardAssembly w | discardCiq w | discardRnq w | clearFramingSticky w | clearNoticeLostSticky w =>
    exact ⟨_, rfl, State.bitSlot_pending (by exact fun _ => rfl) s _ w _⟩
  case attnMaskWrite w => exact ⟨_, rfl, s.writeSlot_pending (State.firstWord_pending (by exact fun _ => rfl)) _⟩
  case ignoredRegisterWrite i w =>
    exact ⟨_, rfl, pending_ite fun _ => s.writeSlot_pending (State.firstWord_pending (by exact fun _ => rfl)) i⟩
  case transactionStart b => exact ⟨_, rfl, by split <;> rfl⟩
  case transactionEnd => exact ⟨_, rfl, by split <;> rfl⟩
  case powerOnReset | rstnReset | rstnRelease | vddLoss | countInputChange | dinChange => exact ⟨_, rfl, rfl⟩
  case initialisationComplete | tripInRelease | overloadRelease | supplyReturn | gapEnd =>
    exact ⟨_, rfl, pending_ite fun _ => rfl⟩
  case unknownKind =>
    refine ⟨_, rfl, ?_⟩
    split
    · split <;> rfl
    · rfl
  case safetyInputChange p l => exact ⟨_, rfl, by cases p <;> rfl⟩
  case tripInAssert | overloadAssert | supplyLoss | watchExpiry =>
    exact ⟨_, rfl, pending_ite fun _ => (State.causeAsserts_waiting _ _ _ _ _ _).pending⟩
  case pulseEnd n => exact ⟨_, rfl, pending_ite fun _ => (State.RunFrame.setLogical 0 s n _ _).keepsWaiting.pending⟩
  case stallExpiry k => exact ⟨_, rfl, pending_ite fun _ => (s.channelFault_frame k _).keepsWaiting.pending⟩
  case windowEnd k =>
    refine ⟨_, rfl, ?_⟩
    split
    · exact (s.windowEnd_frame k _).keepsWaiting.pending
    · rfl
  case countFilterAccept pins =>
    exact ⟨_, rfl, (State.KeepsWaiting.fold (fun t k => (t.takeSteps_frame _ _ k).keepsWaiting) _ _).pending⟩
  case dinFilterAccept pins =>
    exact ⟨_, rfl, pending_ite fun _ =>
      (State.KeepsWaiting.fold (fun t k => (State.evaluateChannel_frame _ t k).keepsWaiting) _ _).pending⟩
  all_goals cases hc

/-- A command row leaves the waiting commands: its body does, and so do the taking of the message and the reply. -/
theorem State.command_pending {f : CommandForm} {body : Message → State → State × Reply}
    (hbody : ∀ m s, (body m s).1.pending = s.pending) (s : State) : (s.command f body).pending = s.pending := by
  obtain hsame | ⟨m, rest, -, -, hstep⟩ := s.command_cases f body
  · rw [hsame]
  · rw [hstep, State.execute]
    split
    · rfl
    · exact hbody m (s.takeMessage rest)

/-- Settles O2: a command row by its body, every other row by its own case. -/
theorem everyCommandKeepsQueue : Obligations.EveryCommandKeepsQueue := by
  intro c s
  cases hc : engineCommand c with
  | some x => exact ⟨_, exec_engineCommand hc s, State.command_pending (fun m t => (engineCommand_waiting hc m t).1) s⟩
  | none => exact exec_outsideEngine_pending hc s

end Sys2Proof.Machine
end

section
/-! Mask commands (R24, R25), and START and RESTART, which act on all the channels that they name or on none (R81, R82,
R94). -/

namespace Sys2Proof.Machine

variable {s t : State} {m : Message} {rest : List Message}

/-! ### Masks (R24) -/

/-- A mask is valid when no bit above the channels is set and it names one. -/
theorem maskValid_iff (w : Word) : maskValid w = true ↔ w.extractLsb' 6 26 = 0#26 ∧ w.extractLsb' 0 6 ≠ 0#6 := by
  simp [maskValid, field, bne_iff_ne]

theorem maskValid_eq_false (w : Word) : maskValid w = false ↔ w.extractLsb' 6 26 ≠ 0#26 ∨ w.extractLsb' 0 6 = 0#6 := by
  rw [← Bool.not_eq_true, maskValid_iff, Decidable.not_and_iff_or_not, not_not]

theorem mem_namedChannels {w : Word} {k : Fin 6} : k ∈ namedChannels w ↔ w.getLsbD k.val = true := by
  simp [namedChannels, bit, mem_channelNumbers]

theorem nodup_namedChannels (w : Word) : (namedChannels w).Nodup := List.Nodup.filter _ (by decide)

/-- The bits of a mask of named channels. -/
theorem getLsbD_maskOf (w : Word) (test : Fin 6 → Bool) (k : Fin 6) :
    (maskOf w test).getLsbD k.val = (w.getLsbD k.val && test k) := by
  rw [maskOf, getLsbD_placeFlags]
  fin_cases k <;> rfl

theorem getLsbD_maskOf_high (w : Word) (test : Fin 6 → Bool) {i : Nat} (hi : 6 ≤ i) : (maskOf w test).getLsbD i = false := by
  rw [maskOf, getLsbD_placeFlags, List.getD_eq_default _ _ (by simpa [channelNumbers] using hi), Bool.and_false]

theorem extractLsb'_eq_zero {w : Word} {lo n : Nat} (h : ∀ i < n, w.getLsbD (lo + i) = false) : w.extractLsb' lo n = 0#n := by
  apply BitVec.eq_of_getLsbD_eq
  intro i hi
  rw [BitVec.getLsbD_extractLsb', h i hi, Bool.and_false, BitVec.getLsbD_zero]

theorem extract_maskOf (w : Word) (test : Fin 6 → Bool) : (maskOf w test).extractLsb' 6 26 = 0#26 :=
  extractLsb'_eq_zero fun i _ => getLsbD_maskOf_high w test (by omega)

/-- A mask is 0 when the test fails on every named channel. -/
theorem maskOf_eq_zero (w : Word) (test : Fin 6 → Bool) :
    maskOf w test = 0#32 ↔ ∀ k : Fin 6, w.getLsbD k.val = true → test k = false := by
  constructor
  · intro h k hk
    have hbit := getLsbD_maskOf w test k
    rw [h, hk, Bool.true_and, BitVec.getLsbD_zero] at hbit
    exact hbit.symm
  · intro h
    apply BitVec.eq_of_getLsbD_eq
    intro i _
    rw [BitVec.getLsbD_zero]
    obtain hi | hi := Nat.lt_or_ge i 6
    · rw [getLsbD_maskOf w test ⟨i, hi⟩]
      cases hk : w.getLsbD i with
      | false => rfl
      | true => exact h ⟨i, hi⟩ hk
    · exact getLsbD_maskOf_high w test hi

/-! ### A device-wide command of one word -/

theorem exec_device_word {c : Instr} {f : CommandForm} {body : Message → State → State × Reply} {w : Word}
    (hc : engineCommand c = some (f, body)) (hf : f = .device f.kind 1) (h : s.takes m rest)
    (hm : m.isCommand f.kind 15#4 0#9) (hbody : m.body = [w]) :
    exec c s = .next ((body m (s.takeMessage rest)).1.admitReply m (body m (s.takeMessage rest)).2) := by
  rw [exec_engineCommand hc, State.command_device h hm rfl (by rw [hf]; rfl) (by rw [hf]; simp [CommandForm.device, hbody])
    (by rw [hf]; exact nofun)]

theorem Message.word_zero {w : Word} (hbody : m.body = [w]) : m.word 0 = w := by simp [Message.word, hbody]

/-! ### One change for each named channel -/

/-- A change of each channel of a list, each by itself. -/
theorem State.modChans (f : Channel → Channel) (l : List (Fin 6)) : ∀ s : State, l.Nodup →
    l.foldl (fun t k => t.modChan k f) s = { s with channels := (l.foldl (fun t k => t.modChan k f) s).channels }
      ∧ ∀ k : Fin 6, (l.foldl (fun t k => t.modChan k f) s).chan k = if k ∈ l then f (s.chan k) else s.chan k := by
  induction l with
  | nil => exact fun s _ => ⟨rfl, fun k => by simp⟩
  | cons i l ih =>
    intro s hd
    obtain ⟨hi, hd⟩ := List.nodup_cons.mp hd
    obtain ⟨hfields, hchan⟩ := ih (s.modChan i f) hd
    refine ⟨hfields, fun k => ?_⟩
    rw [List.foldl_cons, hchan, State.chan_modChan]
    by_cases hk : k = i
    · subst hk; simp [hi]
    · simp [hk]

/-- A command that changes each named channel by itself, and answers DONE. -/
theorem State.modNamed_answered (f : Channel → Channel) (w : Word) (s : State) (m : Message) (rest : List Message) :
    let t := ((namedChannels w).foldl (fun t k => t.modChan k f) (s.takeMessage rest)).admitReply m (.done [])
    t = { s.answered m rest .done [] with channels := t.channels }
      ∧ (∀ k : Fin 6, w.getLsbD k.val = false → t.chan k = s.chan k)
      ∧ ∀ k : Fin 6, w.getLsbD k.val = true → t.chan k = f (s.chan k) := by
  obtain ⟨hfields, hchan⟩ := State.modChans f (namedChannels w) (s.takeMessage rest) (nodup_namedChannels w)
  intro t
  refine ⟨?_, fun k hk => ?_, fun k hk => ?_⟩
  · show State.admitReply _ _ _ = _
    rw [hfields]; rfl
  · exact (hchan k).trans (if_neg (by simp [mem_namedChannels, hk]))
  · exact (hchan k).trans (if_pos (mem_namedChannels.mpr hk))

/-! ### Entering RUNNING (R83, R97) -/

/-- Entry to RUNNING starts the stall timer in full when it may run. -/
theorem Channel.enterRunning_eq (c : Channel) : c.enterRunning = { c with state := .running, stallLeft := c.stallTime } := by
  simp [Channel.enterRunning, Channel.fullStall, Channel.stallTime]

/-- The beginning of a run: a PACE channel begins its first window. -/
theorem Channel.beginRun_eq (c : Channel) : c.beginRun = { c with
    state := .running, stallLeft := c.stallTime
    windowLeft := if c.active.mode = .pace then some ⟨windowTime c.active.window, c.active.window⟩ else c.windowLeft } := by
  rw [Channel.beginRun, Channel.enterRunning_eq]
  by_cases h : c.active.mode = .pace <;> simp [h, Channel.startWindow]

/-- A return from QUENCHED re-arms the marks ahead, in PACE all of them. -/
theorem Channel.returnToRunning_eq (c : Channel) : c.rearmForRestart.enterRunning = { c with
    state := .running, stallLeft := c.stallTime
    arming := if c.active.mode.counting then c.active.armAhead (c.active.progress c.value) else c.active.armAll } := by
  rw [Channel.enterRunning_eq]; rfl

/-! ### START (R81, R82) -/

theorem State.startFails_eq (s : State) (k : Fin 6) : s.startFails k =
    (decide ((s.chan k).state ≠ .idle ∧ (s.chan k).state ≠ .complete) || s.ledger.records.any (fun r => r.source == .channel k)) := by
  rw [State.startFails, State.hasChannelRecord]
  cases (s.chan k).state <;> rfl

/-- An accepted START of a channel, field by field. -/
theorem Channel.start_eq (c : Channel) :
    let runs := c.active.startTerm.refs.isEmpty
    c.start = { c with
      value := c.active.loadValue, cycleIndex := 0#16, arming := c.active.armAll, captures := []
      overcapture := 0#8, accumulator := 0#32, ring := [], windowCount := 0#16, lastWindowOrdinal := 0#16
      phaseErrors := 0#8, resyncPending := false
      state := if runs then .running else .armed
      stallLeft := if runs then c.stallTime else c.stallLeft
      windowLeft := if runs && c.active.mode == .pace then some ⟨windowTime c.active.window, c.active.window⟩
        else c.windowLeft } := by
  intro runs
  unfold Channel.start
  by_cases h : runs = true
  · rw [if_pos h, Channel.beginRun_eq]
    simp only [h, Bool.true_and, beq_iff_eq, if_true]
    rfl
  · rw [if_neg h]
    simp only [h, Bool.false_and, Bool.false_eq_true, if_false]
    rfl

/-- The two masks of a refused START. -/
theorem startMasks_bits (w : Word) (fails recorded : Fin 6 → Bool) :
    let r := maskOf w fails ||| maskOf w recorded <<< 8
    r.extractLsb' 6 2 = 0#2 ∧ r.extractLsb' 14 18 = 0#18
      ∧ ∀ k : Fin 6, r.getLsbD k.val = (w.getLsbD k.val && fails k) ∧ r.getLsbD (8 + k.val) = (w.getLsbD k.val && recorded k) := by
  refine ⟨extractLsb'_eq_zero fun i hi => ?_, extractLsb'_eq_zero fun i hi => ?_, fun k => ⟨?_, ?_⟩⟩
  · simp [BitVec.getLsbD_shiftLeft, getLsbD_maskOf_high w fails (i := 6 + i) (by omega), show 6 + i < 8 by omega]
  · simp [BitVec.getLsbD_shiftLeft, getLsbD_maskOf_high w fails (i := 14 + i) (by omega),
      getLsbD_maskOf_high w recorded (i := 14 + i - 8) (by omega)]
  · simp [BitVec.getLsbD_shiftLeft, getLsbD_maskOf w fails k, show k.val < 8 by omega]
  · rw [BitVec.getLsbD_or, getLsbD_maskOf_high w fails (by omega), BitVec.getLsbD_shiftLeft, Nat.add_sub_cancel_left,
      getLsbD_maskOf]
    simp [show 8 + k.val < 32 by omega]

/-- Settles O29: the checks of START are those of its two masks, and each channel starts by itself. -/
theorem startLoadsNamedChannels : Obligations.StartLoadsNamedChannels := by
  intro s m rest w h hm hbody
  rw [exec_device_word (c := .start) rfl rfl h hm hbody]
  have hstart : (s.takeMessage rest).start m = if maskValid w = false then refuse .badValue (s.takeMessage rest)
      else if maskOf w s.startFails = 0#32 then completed ((namedChannels w).foldl State.startChannel (s.takeMessage rest))
      else (s.takeMessage rest, ⟨.wrongState, [maskOf w s.startFails ||| maskOf w s.hasChannelRecord <<< 8]⟩) := by
    rw [State.start, Message.word_zero hbody]; rfl
  rw [hstart]
  refine ⟨fun hbad => ?_, fun hhigh hlow => ⟨fun hall => ?_, fun hsome => ?_⟩⟩
  · rw [if_pos ((maskValid_eq_false w).mpr hbad)]; rfl
  all_goals rw [if_neg (by rw [(maskValid_iff w).mpr ⟨hhigh, hlow⟩]; decide)]
  · rw [if_pos ((maskOf_eq_zero w s.startFails).mpr fun k hk => (s.startFails_eq k).trans (hall k hk))]
    obtain ⟨hfields, hothers, hnamed⟩ := State.modNamed_answered Channel.start w s m rest
    exact ⟨_, rfl, hfields, hothers, fun k hk => (hnamed k hk).trans (Channel.start_eq _)⟩
  · obtain ⟨k, hk, hfails⟩ := hsome
    rw [if_neg fun hzero => by
      have hpasses := (maskOf_eq_zero w s.startFails).mp hzero k hk
      exact Bool.false_ne_true (hpasses.symm.trans ((s.startFails_eq k).trans hfails))]
    obtain ⟨hgap, hhigh, hbits⟩ := startMasks_bits w s.startFails s.hasChannelRecord
    refine ⟨_, rfl, hgap, hhigh, fun i => ⟨?_, (hbits i).2⟩⟩
    rw [(hbits i).1, s.startFails_eq i]

/-! ### RESTART (R94, R111, R116, R117) -/

/-- The flags of all marks armed. -/
theorem getLsbD_allFlags {n : Nat} (i : Fin 8) : (BitVec.ofNat 8 (2 ^ n - 1)).getLsbD i.val = decide (i.val < n) := by
  rw [BitVec.getLsbD_ofNat, Nat.testBit_two_pow_sub_one, decide_eq_true i.isLt, Bool.true_and]

/-- The flag of mark i alone. -/
theorem getLsbD_oneShifted (i : Nat) {j : Nat} (hj : j < 8) : (1#8 <<< i).getLsbD j = decide (j = i) := by
  rw [BitVec.getLsbD_shiftLeft, BitVec.getLsbD_one, Bool.eq_iff_iff]
  simp [hj]
  omega

/-- The flags of the marks ahead, from index i on. -/
theorem ChannelConfig.getLsbD_aheadFlags (c : ChannelConfig) (p : Int) (j : Nat) (hj : j < 8) (l : List Mark) : ∀ i : Nat,
    (c.aheadFlags p i l).getLsbD j = (decide (i ≤ j) && (l.map fun m => decide (p < c.position m)).getD (j - i) false) := by
  induction l with
  | nil => intro i; simp [ChannelConfig.aheadFlags]
  | cons m l ih =>
    intro i
    have hone : (if c.position m > p then 1#8 <<< i else 0#8).getLsbD j = (decide (j = i) && decide (p < c.position m)) := by
      split
      next hp => rw [getLsbD_oneShifted i hj, decide_eq_true hp, Bool.and_true]
      next hp => simp [hp]
    rw [ChannelConfig.aheadFlags, BitVec.getLsbD_or, hone, ih]
    obtain hlt | rfl | hgt := Nat.lt_trichotomy j i
    · simp [show ¬j = i by omega, show ¬i + 1 ≤ j by omega, show ¬i ≤ j by omega]
    · simp
    · obtain ⟨d, rfl⟩ : ∃ d, j = i + 1 + d := ⟨j - (i + 1), by omega⟩
      simp [show i + 1 + d - i = d + 1 by omega, show ¬i + 1 + d = i by omega, show i ≤ i + 1 + d by omega]

/-- The head is the first mark ahead. -/
theorem ChannelConfig.aheadHead_none {c : ChannelConfig} {p : Int} {l : List Mark} (h : ∀ m ∈ l, c.position m ≤ p) :
    ∀ i : Nat, c.aheadHead p i l = none := by
  induction l with
  | nil => exact fun _ => rfl
  | cons m l ih =>
    intro i
    rw [ChannelConfig.aheadHead, if_neg (not_lt.mpr (h m List.mem_cons_self)), ih fun x hx => h x (List.mem_cons_of_mem m hx)]

theorem ChannelConfig.aheadHead_first {c : ChannelConfig} {p : Int} {passed waiting : List Mark} {m : Mark}
    (h : ∀ x ∈ passed, c.position x ≤ p) (hm : p < c.position m) :
    ∀ i : Nat, c.aheadHead p i (passed ++ m :: waiting) = some (i + passed.length) := by
  induction passed with
  | nil => intro i; exact if_pos hm
  | cons x l ih =>
    intro i
    rw [List.cons_append, ChannelConfig.aheadHead, if_neg (not_lt.mpr (h x List.mem_cons_self)),
      ih (fun y hy => h y (List.mem_cons_of_mem x hy)), List.length_cons]
    congr 1; omega

/-- Settles O30: RESTART by its mask, and the arming by induction on the mark list. -/
theorem restartReturnsToRunning : Obligations.RestartReturnsToRunning := by
  refine ⟨fun s m rest w h hm hbody => ?_, fun c p hlen => ⟨fun m => ?_, fun horder => ?_, fun horder => ⟨?_, ?_, ?_⟩⟩⟩
  · rw [exec_device_word (c := .restart) rfl rfl h hm hbody]
    have hrestart : (s.takeMessage rest).restart m = if maskValid w = false then refuse .badValue (s.takeMessage rest)
        else if maskOf w s.notQuenched = 0#32 then completed ((namedChannels w).foldl State.restartChannel (s.takeMessage rest))
        else (s.takeMessage rest, ⟨.wrongState, [maskOf w s.notQuenched]⟩) := by
      rw [State.restart, Message.word_zero hbody]; rfl
    rw [hrestart]
    refine ⟨fun hbad => ?_, fun hhigh hlow => ⟨fun hall => ?_, fun hsome => ?_⟩⟩
    · rw [if_pos ((maskValid_eq_false w).mpr hbad)]; rfl
    all_goals rw [if_neg (by rw [(maskValid_iff w).mpr ⟨hhigh, hlow⟩]; decide)]
    · rw [if_pos ((maskOf_eq_zero w s.notQuenched).mpr fun k hk => by simp [State.notQuenched, hall k hk])]
      obtain ⟨hfields, hothers, hnamed⟩ := State.modNamed_answered (fun c => c.rearmForRestart.enterRunning) w s m rest
      exact ⟨_, rfl, hfields, hothers, fun k hk => (hnamed k hk).trans (Channel.returnToRunning_eq _)⟩
    · obtain ⟨k, hk, hstate⟩ := hsome
      rw [if_neg fun hzero => by
        have hpasses := (maskOf_eq_zero w s.notQuenched).mp hzero k hk
        exact hstate (by simpa [State.notQuenched] using hpasses)]
      exact ⟨_, rfl, extract_maskOf w _, getLsbD_maskOf w _⟩
  · unfold ChannelConfig.position ChannelConfig.finalValue
    cases c.reference <;> cases c.direction <;> simp
  · refine ⟨_, _, by rw [ChannelConfig.armAll, horder], by rw [ChannelConfig.armAhead, horder], fun i => ⟨getLsbD_allFlags i, ?_⟩⟩
    rw [c.getLsbD_aheadFlags p i.val i.isLt]; simp
  · rw [ChannelConfig.armAll, horder]
    cases c.marks <;> rfl
  · intro hpassed
    rw [ChannelConfig.armAhead, horder]
    exact congrArg _ (ChannelConfig.aheadHead_none hpassed 0)
  · intro passed waiting m hmarks hpassed hm
    rw [ChannelConfig.armAhead, horder, hmarks]
    exact congrArg _ ((ChannelConfig.aheadHead_first hpassed hm 0).trans (by rw [Nat.zero_add]))

end Sys2Proof.Machine
end

section
/-! QUENCH, a per-channel mask command that releases lines (R25, R93, R142). -/

namespace Sys2Proof.Machine

variable {s t u : State} {m : Message} {rest : List Message}

/-! ### Releases (R142, R144) -/

theorem State.onlyReleases_refl (s : State) : s.onlyReleases s fun _ => false :=
  ⟨rfl, by simp, fun _ _ => rfl, fun j => by simp⟩

theorem State.onlyReleases_modChan {named : Fin 6 → Bool} (h : s.onlyReleases t named) (k : Fin 6) (f : Channel → Channel) :
    s.onlyReleases (t.modChan k f) named := h

/-- The release of one channel's lines. -/
theorem State.releaseLines_onlyReleases (s : State) (k : Fin 6) : s.onlyReleases (s.releaseLines k) (· == k) := by
  obtain ⟨-, hshut, hlines, hpairs⟩ := s.releaseLines_cases k
  refine ⟨hshut, fun i n hi howner => ?_, fun n hn => ?_, fun j => ?_⟩
  · rw [hlines, if_pos (by rw [howner, beq_iff_eq.mp hi])]
  · rw [hlines, if_neg (hn k (beq_self_eq_true k))]
  · rw [hpairs]
    refine if_congr ⟨?_, ?_⟩ rfl rfl
    · rintro ⟨howner, hactive, howned, hpermit⟩
      have hpaired : (s.pair j).paired = true := by
        rw [State.ownedPair, Bool.and_eq_true] at howned; exact howned.1
      exact ⟨hpermit, hpaired, hactive, k, beq_self_eq_true k, howner⟩
    · rintro ⟨hpermit, hpaired, hactive, i, hi, howner⟩
      rw [beq_iff_eq.mp hi] at howner
      exact ⟨howner, hactive, by simp [State.ownedPair, hpaired, howner], hpermit⟩

/-- Releases followed by releases: a line that is cleared twice is cleared, and its pair enters its gap once. -/
theorem State.onlyReleases_trans {a b : Fin 6 → Bool} (h : s.onlyReleases t a) (hpermit : t.trip.permit = s.trip.permit)
    (h' : t.onlyReleases u b) : s.onlyReleases u fun k => a k || b k := by
  obtain ⟨hshut, hcleared, hkept, hpairs⟩ := h
  obtain ⟨hshut', hcleared', hkept', hpairs'⟩ := h'
  have howner : ∀ n : Fin 12, (t.line n).owner = (s.line n).owner := fun n => by
    by_cases hn : ∃ k : Fin 6, a k = true ∧ (s.line n).owner = .channel k
    · obtain ⟨k, hk, ho⟩ := hn; rw [hcleared k n hk ho]; rfl
    · rw [hkept n fun k hk ho => hn ⟨k, hk, ho⟩]
  have hpaired : ∀ j : Fin 6, (t.pair j).paired = (s.pair j).paired := fun j => by rw [hpairs j]; split <;> rfl
  refine ⟨hshut'.trans hshut, fun k n hk ho => ?_, fun n hn => ?_, fun j => ?_⟩
  · by_cases hb : b k = true
    · rw [hcleared' k n hb ((howner n).trans ho)]
      by_cases ha : a k = true
      · rw [hcleared k n ha ho]; rfl
      · rw [hkept n fun i hi hoi => ha (by rw [ho] at hoi; cases hoi; exact hi)]
    · have ha : a k = true := (Bool.or_eq_true_iff.mp hk).resolve_right hb
      rw [hkept' n fun i hi hoi => hb (by rw [howner n, ho] at hoi; cases hoi; exact hi), hcleared k n ha ho]
  · rw [hkept' n fun k hk ho => hn k (by simp [hk]) ((howner n).symm.trans ho), hkept n fun k hk => hn k (by simp [hk])]
  · rw [hpairs' j, howner, hpaired, hpermit]
    by_cases ha : ∃ k : Fin 6, a k = true ∧ (s.line (evenLine j)).owner = .channel k
    · obtain ⟨k, hk, ho⟩ := ha
      rw [if_neg (by rw [hcleared k _ hk ho]; simp [Line.cleared]), hpairs j]
      refine if_congr ⟨?_, ?_⟩ rfl rfl
      · rintro ⟨h1, h2, h3, i, hi, hoi⟩; exact ⟨h1, h2, h3, i, by simp [hi], hoi⟩
      · rintro ⟨h1, h2, h3, -⟩; exact ⟨h1, h2, h3, k, hk, ho⟩
    · have hsettled : t.pair j = s.pair j := (hpairs j).trans (if_neg fun h => ha h.2.2.2)
      rw [hkept _ fun k hk ho => ha ⟨k, hk, ho⟩, hsettled]
      refine if_congr ⟨?_, ?_⟩ rfl rfl
      · rintro ⟨h1, h2, h3, i, hi, hoi⟩; exact ⟨h1, h2, h3, i, by simp [hi], hoi⟩
      · rintro ⟨h1, h2, h3, i, hi, hoi⟩
        exact ⟨h1, h2, h3, i, (Bool.or_eq_true_iff.mp hi).resolve_left fun hai => ha ⟨i, hai, hoi⟩, hoi⟩

/-! ### A per-channel command on the channels on which it is legal (R25) -/

/-- What an act on one further channel preserves of the effect on the channels before it holds of the whole fold. -/
theorem State.foldl_channels {effect : State → (Fin 6 → Bool) → Prop} {act : State → Fin 6 → State}
    (hact : ∀ t named k, effect t named → named k = false → effect (act t k) fun i => named i || i == k)
    (l : List (Fin 6)) : ∀ (t : State) (named : Fin 6 → Bool), effect t named → l.Nodup → (∀ k ∈ l, named k = false) →
      effect (l.foldl act t) fun i => named i || decide (i ∈ l) := by
  induction l with
  | nil => intro t named h _ _; simpa using h
  | cons k l ih =>
    intro t named h hd hl
    obtain ⟨hk, hd⟩ := List.nodup_cons.mp hd
    have hnext := ih (act t k) (fun i => named i || i == k) (hact t named k h (hl k List.mem_cons_self)) hd fun i hi => by
      have hik : i ≠ k := fun hx => hk (hx ▸ hi)
      simp [hl i (List.mem_cons_of_mem k hi), hik]
    have hsame : (fun i => named i || decide (i ∈ k :: l)) = fun i => (named i || i == k) || decide (i ∈ l) := by
      funext i
      by_cases hx : i = k <;> simp [hx, beq_eq_false_iff_ne.mpr]
    rw [List.foldl_cons, hsame]
    exact hnext

/-- The named channels on which the command is legal. -/
theorem decide_mem_legal (w : Word) (legal : Fin 6 → Bool) (k : Fin 6) :
    decide (k ∈ (namedChannels w).filter legal) = (w.getLsbD k.val && legal k) := by
  rw [Bool.eq_iff_iff]
  simp [List.mem_filter, mem_namedChannels]

/-- A per-channel command with a valid mask acts on the named channels on which it is legal. -/
theorem perChannel_effect {effect : State → (Fin 6 → Bool) → Prop} {act : State → Fin 6 → State} {legal : State → Fin 6 → Bool}
    {w : Word} (hbody : m.body = [w]) (hvalid : maskValid w = true) (hstart : effect s fun _ => false)
    (hact : ∀ t named k, effect t named → named k = false → effect (act t k) fun i => named i || i == k) :
    effect (perChannel legal act m s).1 fun k => w.getLsbD k.val && legal s k := by
  have hfold := State.foldl_channels hact ((namedChannels w).filter (legal s)) s (fun _ => false) hstart
    ((nodup_namedChannels w).filter _) fun _ _ => rfl
  simp only [Bool.false_or, decide_mem_legal] at hfold
  unfold perChannel
  simp only [Message.word_zero hbody, hvalid, Bool.true_eq_false, if_false]
  exact hfold

/-- A per-channel command with a mask that is not valid is refused. -/
theorem perChannel_refused {act : State → Fin 6 → State} {legal : State → Fin 6 → Bool} {w : Word} (hbody : m.body = [w])
    (hbad : maskValid w = false) : perChannel legal act m s = refuse .badValue s := by
  unfold perChannel
  simp only [Message.word_zero hbody, hbad, if_true]

/-- The reply of a per-channel command: DONE, or PARTIAL with the mask of the named channels on which it is not legal. -/
theorem perChannel_reply {act : State → Fin 6 → State} {legal : State → Fin 6 → Bool} {w : Word} (hbody : m.body = [w])
    (hvalid : maskValid w = true) :
    let acts := fun k : Fin 6 => w.getLsbD k.val && legal s k
    ∃ code body, (perChannel legal act m s).2 = ⟨code, body⟩
      ∧ ((∀ k : Fin 6, w.getLsbD k.val = acts k) → code = .done ∧ body = [])
      ∧ ((∃ k : Fin 6, w.getLsbD k.val ≠ acts k) → code = .partly ∧ ∃ r, body = [r]
        ∧ r.extractLsb' 6 26 = 0#26 ∧ ∀ k : Fin 6, r.getLsbD k.val = (w.getLsbD k.val && !acts k)) := by
  intro acts
  have hmissed : maskOf w (fun k => !legal s k) = 0#32 ↔ ∀ k : Fin 6, w.getLsbD k.val = acts k := by
    rw [maskOf_eq_zero]
    refine forall_congr' fun k => ?_
    cases hk : w.getLsbD k.val <;> simp [acts, hk]
  have hreply : (perChannel legal act m s).2 = if maskOf w (fun k => !legal s k) = 0#32 then .done []
      else ⟨.partly, [maskOf w fun k => !legal s k]⟩ := by
    unfold perChannel
    simp only [Message.word_zero hbody, hvalid, Bool.true_eq_false, if_false]
  rw [hreply]
  by_cases hzero : maskOf w (fun k => !legal s k) = 0#32
  · exact ⟨.done, [], if_pos hzero, fun _ => ⟨rfl, rfl⟩, fun ⟨k, hk⟩ => absurd (hmissed.mp hzero k) hk⟩
  · refine ⟨.partly, [_], if_neg hzero, fun hall => absurd (hmissed.mpr hall) hzero, fun _ => ⟨rfl, _, rfl, extract_maskOf w _, ?_⟩⟩
    intro k
    rw [getLsbD_maskOf]
    cases hk : w.getLsbD k.val <;> simp [acts, hk]

/-! ### QUENCH (R93) -/

/-- The channel as QUENCH, or a rise of the quench term, leaves it (R93). -/
def Channel.quenched (c : Channel) : Channel :=
  { c with state := .quenched, arming := Arming.disarmed c.active.order, stallLeft := none }

/-- From s to t the named channels have entered QUENCHED and released their lines, and nothing else has changed. -/
structure State.Quenches (s t : State) (named : Fin 6 → Bool) : Prop where
  fields : t = { s with channels := t.channels, matrix := t.matrix }
  acted : ∀ k : Fin 6, named k = true → t.chan k = (s.chan k).quenched
  others : ∀ k : Fin 6, named k = false → t.chan k = s.chan k
  releases : s.onlyReleases t named

theorem State.Quenches.refl (s : State) : s.Quenches s fun _ => false := ⟨rfl, by simp, fun _ _ => rfl, s.onlyReleases_refl⟩

theorem State.modChan_of_matrix (h : t = { s with matrix := t.matrix }) (k : Fin 6) (f : Channel → Channel) :
    t.modChan k f = { s with channels := (t.modChan k f).channels, matrix := (t.modChan k f).matrix } := by
  rw [h]; rfl

/-- Entry to QUENCHED: the channel, and the release of its lines. -/
theorem State.enterQuenched_cases (s : State) (k : Fin 6) : s.Quenches (s.enterQuenched k) (· == k) := by
  have hreleases := (s.releaseLines_cases k).1
  have hchan : ∀ i : Fin 6, (s.releaseLines k).chan i = s.chan i := fun i => State.chan_of_matrix hreleases
  refine ⟨State.modChan_of_matrix hreleases k _, fun i hi => ?_, fun i hi => ?_,
    State.onlyReleases_modChan (s.releaseLines_onlyReleases k) k _⟩
  · rw [beq_iff_eq.mp hi, State.enterQuenched, State.chan_modChan_same, hchan]; rfl
  · rw [State.enterQuenched, State.chan_modChan_other _ (by simpa using hi), hchan]

theorem State.Quenches.enterQuenched {named : Fin 6 → Bool} {k : Fin 6} (h : s.Quenches t named) (hk : named k = false) :
    s.Quenches (t.enterQuenched k) fun i => named i || i == k := by
  have h' := t.enterQuenched_cases k
  refine ⟨by rw [h'.fields, h.fields], fun i hi => ?_, fun i hi => ?_,
    State.onlyReleases_trans h.releases (by rw [h.fields]) h'.releases⟩
  · by_cases hik : i = k
    · rw [h'.acted i (by simpa using hik), h.others i (hik ▸ hk)]
    · rw [h'.others i (by simpa using hik), h.acted i (by simpa [hik] using hi)]
  · obtain ⟨hi, hik⟩ := Bool.or_eq_false_iff.mp hi
    rw [h'.others i hik, h.others i hi]

/-- Settles O31: QUENCH is the per-channel command whose act is the entry to QUENCHED. -/
theorem quenchActsPerChannel : Obligations.QuenchActsPerChannel := by
  intro s m rest w h hm hbody
  rw [exec_device_word (c := .quench) rfl rfl h hm hbody]
  refine ⟨fun hbad => ?_, fun hhigh hlow => ?_⟩
  · rw [perChannel_refused hbody ((maskValid_eq_false w).mpr hbad)]; rfl
  have hvalid := (maskValid_iff w).mpr ⟨hhigh, hlow⟩
  have hquench := perChannel_effect (effect := (s.takeMessage rest).Quenches) (legal := State.quenchLegal) hbody hvalid
    (.refl _) fun t named k ht hk => ht.enterQuenched hk
  obtain ⟨code, body, hreply, hdone, hpartly⟩ := perChannel_reply (s := s.takeMessage rest) (act := State.enterQuenched)
    (legal := State.quenchLegal) hbody hvalid
  refine ⟨_, rfl, ⟨code, body, ?_, hdone, hpartly⟩, hquench.acted, hquench.others, hquench.releases⟩
  rw [hreply]
  generalize (perChannel State.quenchLegal State.enterQuenched m (s.takeMessage rest)).1 = t at hquench
  rw [hquench.fields]; rfl

end Sys2Proof.Machine
end

section
/-! HALT: the end of a run, a fault that is over, a pending commit applied, and the candidates that it restarts (R39, R47,
R74, R96, R179). -/

namespace Sys2Proof.Machine

variable {s t u : State} {m : Message} {rest : List Message} {k : Fin 6}

/-! ### Filters that a change of settings restarts (R39, R47) -/

/-- The filter of a pin is of the same channel and has the same setting. -/
def State.SameFilter (s t : State) (p : Fin 12) : Prop :=
  s.filterChannel p = t.filterChannel p ∧ s.countFilterOf p = t.countFilterOf p

/-- The active sets alone choose the filter of a pin. -/
theorem State.sameFilter_of_active (h : ∀ i : Fin 6, (t.chan i).active = (s.chan i).active) (p : Fin 12) : s.SameFilter t p := by
  have hchannel : s.filterChannel p = t.filterChannel p := by simp only [State.filterChannel, h]
  exact ⟨hchannel, by rw [State.countFilterOf, State.countFilterOf, hchannel, h]⟩

/-- The candidates of a list of pins restart where their filter changes from before; no other pin changes. -/
theorem State.refilterPins (before : State) (l : List (Fin 12)) : ∀ s : State, l.Nodup →
    (∀ p ∈ l, before.SameFilter s p → (l.foldl (State.refilterPin before) s).countPin p = s.countPin p)
      ∧ (∀ p ∈ l, ¬before.SameFilter s p → (l.foldl (State.refilterPin before) s).countPin p = (s.countPin p).restart)
      ∧ (∀ p ∉ l, (l.foldl (State.refilterPin before) s).countPin p = s.countPin p)
      ∧ (s.instant = none → (l.foldl (State.refilterPin before) s).inputs.restarted = s.inputs.restarted) := by
  induction l with
  | nil => exact fun s _ => ⟨nofun, nofun, fun _ _ => rfl, fun _ => rfl⟩
  | cons q l ih =>
    intro s hd
    obtain ⟨hq, hd⟩ := List.nodup_cons.mp hd
    rw [List.foldl_cons]
    by_cases hsame : before.SameFilter s q
    · rw [show State.refilterPin before s q = s from if_pos hsame]
      obtain ⟨hkept, hrestarted, hothers, hinstant⟩ := ih s hd
      refine ⟨fun p hp h => ?_, fun p hp h => ?_, fun p hp => hothers p fun hx => hp (List.mem_cons_of_mem q hx), hinstant⟩
      · obtain rfl | hp := List.mem_cons.mp hp
        · exact hothers p hq
        · exact hkept p hp h
      · obtain rfl | hp := List.mem_cons.mp hp
        · exact absurd hsame h
        · exact hrestarted p hp h
    · rw [show State.refilterPin before s q = s.withInputs (s.inputs.restartCount q s.instant.isSome) from if_neg hsame]
      obtain ⟨hkept, hrestarted, hothers, hinstant⟩ := ih (s.withInputs (s.inputs.restartCount q s.instant.isSome)) hd
      have hpin : ∀ p : Fin 12, (s.withInputs (s.inputs.restartCount q s.instant.isSome)).countPin p =
          if p = q then (s.countPin q).restart else s.countPin p := fun p => FrontEnd.count_restartCount _ q p _
      refine ⟨fun p hp h => ?_, fun p hp h => ?_, fun p hp => ?_, fun hi => (hinstant hi).trans ?_⟩
      · obtain rfl | hp := List.mem_cons.mp hp
        · exact absurd h hsame
        · rw [hkept p hp h, hpin, if_neg fun hx : p = q => hq (hx ▸ hp)]
      · obtain rfl | hp := List.mem_cons.mp hp
        · rw [hothers p hq, hpin, if_pos rfl]
        · rw [hrestarted p hp h, hpin, if_neg fun hx : p = q => hq (hx ▸ hp)]
      · obtain ⟨hpq, hp⟩ := not_or.mp fun hx => hp (List.mem_cons.mpr hx)
        rw [hothers p hp, hpin, if_neg hpq]
      · rw [hi]; rfl

/-- From s to t no DIN and no filtered level changes, and candidates restart where the filter of their pin changes. -/
theorem State.onlyRestarts_iff : s.onlyRestarts t ↔ t.inputs.din = s.inputs.din
    ∧ (∀ p, s.SameFilter t p → t.countPin p = s.countPin p) ∧ ∀ p, ¬s.SameFilter t p → t.countPin p = (s.countPin p).restart := by
  refine ⟨fun ⟨hdin, hpins⟩ => ⟨hdin, fun p h => (hpins p).trans (if_pos h), fun p h => (hpins p).trans (if_neg h)⟩,
    fun ⟨hdin, hkept, hrestarted⟩ => ⟨hdin, fun p => ?_⟩⟩
  split
  next h => exact hkept p h
  next h => exact hrestarted p h

/-- Filters that may restart do so where the active sets differ from those of the state before. -/
theorem State.refilter_onlyRestarts (hinputs : t.inputs = s.inputs) : s.onlyRestarts (State.refilter s t) := by
  obtain ⟨hframe, hfields⟩ := State.refilter_cases s t 0
  obtain ⟨hkept, hrestarted, -, -⟩ := State.refilterPins s countPinNumbers t (by decide)
  have hactive : ∀ p, t.SameFilter (State.refilter s t) p := State.sameFilter_of_active fun i => by rw [hfields]; rfl
  have hpin : ∀ p, t.countPin p = s.countPin p := fun p => by rw [State.countPin, State.countPin, hinputs]
  refine State.onlyRestarts_iff.mpr ⟨hframe.din.trans (by rw [hinputs]), fun p h => ?_, fun p h => ?_⟩
  · exact (hkept p (mem_countPinNumbers p) ⟨h.1.trans (hactive p).1.symm, h.2.trans (hactive p).2.symm⟩).trans (hpin p)
  · rw [← hpin p]
    exact hrestarted p (mem_countPinNumbers p) fun hx => h ⟨hx.1.trans (hactive p).1, hx.2.trans (hactive p).2⟩

/-- The pins, the DINs and the active sets alone decide which candidates restart. -/
theorem State.onlyRestarts_congr {s' t' : State} (h : s.onlyRestarts t) (hs : s'.inputs.din = s.inputs.din)
    (hsp : ∀ p, s'.countPin p = s.countPin p) (hsa : ∀ i : Fin 6, (s'.chan i).active = (s.chan i).active)
    (ht : t'.inputs = t.inputs) (hta : ∀ i : Fin 6, (t'.chan i).active = (t.chan i).active) : s'.onlyRestarts t' := by
  have hsame : ∀ p, s'.SameFilter t' p ↔ s.SameFilter t p := fun p => by
    have h1 := State.sameFilter_of_active hsa p
    have h2 := State.sameFilter_of_active hta p
    rw [State.SameFilter, State.SameFilter, h1.1, h1.2, h2.1, h2.2]
  obtain ⟨hdin, hkept, hrestarted⟩ := State.onlyRestarts_iff.mp h
  have htp : ∀ p, t'.countPin p = t.countPin p := fun p => by rw [State.countPin, State.countPin, ht]
  refine State.onlyRestarts_iff.mpr ⟨by rw [hs, ht, hdin], fun p hp => ?_, fun p hp => ?_⟩
  · rw [hsp, htp, hkept p ((hsame p).mp hp)]
  · rw [hsp, htp, hrestarted p fun hx => hp ((hsame p).mpr hx)]

theorem State.onlyRestarts_refl (s : State) : s.onlyRestarts s :=
  State.onlyRestarts_iff.mpr ⟨rfl, fun _ _ => rfl, fun p h => absurd (State.sameFilter_of_active (fun _ => rfl) p) h⟩

/-- Two steps that change the active sets of different channels: the filter of a pin is the same after both exactly when
each leaves it, since one channel's mode chooses the channel whose setting is the filter. -/
theorem State.sameFilter_trans (h : ∀ i : Fin 6, (t.chan i).active = (s.chan i).active ∨ (u.chan i).active = (t.chan i).active)
    (p : Fin 12) : s.SameFilter u p ↔ s.SameFilter t p ∧ t.SameFilter u p := by
  refine ⟨fun hsu => ?_, fun ⟨h1, h2⟩ => ⟨h1.1.trans h2.1, h1.2.trans h2.2⟩⟩
  have hchannel : s.filterChannel p = t.filterChannel p := by
    obtain hst | htu := h (partner (channelOfPin p))
    · simp only [State.filterChannel, hst]
    · rw [hsu.1]; simp only [State.filterChannel, htu]
  have hchannel' : t.filterChannel p = u.filterChannel p := hchannel.symm.trans hsu.1
  have hset : s.countFilterOf p = t.countFilterOf p := by
    obtain hst | htu := h (t.filterChannel p)
    · rw [State.countFilterOf, State.countFilterOf, hchannel, hst]
    · rw [hsu.2, State.countFilterOf, State.countFilterOf, ← hchannel', htu]
  exact ⟨⟨hchannel, hset⟩, hchannel', hset.symm.trans hsu.2⟩

theorem FilteredInput.restart_restart (i : FilteredInput) : i.restart.restart = i.restart := by
  simp [FilteredInput.restart, Option.map_map, Function.comp_def]

theorem State.onlyRestarts_trans
    (h : ∀ i : Fin 6, (t.chan i).active = (s.chan i).active ∨ (u.chan i).active = (t.chan i).active)
    (hst : s.onlyRestarts t) (htu : t.onlyRestarts u) : s.onlyRestarts u := by
  obtain ⟨hdin, hkept, hrestarted⟩ := State.onlyRestarts_iff.mp hst
  obtain ⟨hdin', hkept', hrestarted'⟩ := State.onlyRestarts_iff.mp htu
  refine State.onlyRestarts_iff.mpr ⟨hdin'.trans hdin, fun p hp => ?_, fun p hp => ?_⟩
  · obtain ⟨h1, h2⟩ := (State.sameFilter_trans h p).mp hp
    rw [hkept' p h2, hkept p h1]
  · by_cases h1 : s.SameFilter t p
    · rw [hrestarted' p fun h2 => hp ((State.sameFilter_trans h p).mpr ⟨h1, h2⟩), hkept p h1]
    · by_cases h2 : t.SameFilter u p
      · rw [hkept' p h2, hrestarted p h1]
      · rw [hrestarted' p h2, hrestarted p h1, FilteredInput.restart_restart]

/-! ### A pending commit at the end of a run (R53, R74, R75) -/

/-- Outside RUNNING the stall timer stays as it is when the held values are taken (R97). -/
theorem Channel.evaluate_idle {c : Channel} (h : c.state ≠ .running) (f : FrontEnd) (oldStall : Byte) :
    c.evaluate f oldStall = { c with
      heldStart := f.termValue c.active.startTerm
      heldRestart := f.termValue c.active.restartTerm
      heldQuench := f.termValue c.active.quenchTerm
      heldResync := f.termValue c.active.resyncTerm
      gateOpen := f.gateLevel c.active.gate } := by
  rw [Channel.evaluate, if_neg h]

/-- The DIN levels alone give the held values and the gate. -/
theorem Channel.withStagedActive_congr {f g : FrontEnd} (h : f.din = g.din) (c : Channel) :
    c.withStagedActive f = c.withStagedActive g := by
  obtain ⟨_, din, _⟩ := f
  obtain ⟨_, din', _⟩ := g
  obtain rfl : din = din' := h
  rfl

/-- The channel after the copy of a pending commit, if there is one, outside RUNNING. -/
def Channel.settled (c : Channel) (f : FrontEnd) : Channel :=
  if c.commitPending then
    { c.withStagedActive f with arming := Arming.disarmed c.staged.order }
  else c

/-- A copy outside RUNNING: the channel, the inputs, and nothing else. -/
theorem State.copyStaged_idle (h : (s.chan k).state ≠ .running) :
    (s.copyStaged k).chan k = (s.chan k).withStagedActive s.inputs ∧ s.onlyRestarts (s.copyStaged k)
      ∧ (s.instant = none → (s.copyStaged k).inputs.restarted = s.inputs.restarted) := by
  unfold State.copyStaged
  simp only
  generalize hv : s.modChan k (fun c => { c with active := c.staged, commitPending := false }) = v
  have hchan : v.chan k = { s.chan k with active := (s.chan k).staged, commitPending := false } := by
    rw [← hv, s.chan_modChan_same]
  have hrestarts : s.onlyRestarts (State.refilter s v) := State.refilter_onlyRestarts (by rw [← hv]; rfl)
  obtain ⟨-, hfields⟩ := State.refilter_cases s v k
  have hchan' : (State.refilter s v).chan k = v.chan k := by rw [hfields]; rfl
  refine ⟨?_, ?_, fun hi => ?_⟩
  · rw [State.chan_modChan_same, hchan', hchan, Channel.evaluate_idle (by exact h)]
    exact Channel.withStagedActive_congr hrestarts.1 _
  · refine State.onlyRestarts_congr hrestarts rfl (fun _ => rfl) (fun _ => rfl) rfl fun i => ?_
    rw [State.chan_modChan]
    split
    next hi => rw [hi, Channel.evaluate_same ((State.refilter s v).chan k)]
    next => rfl
  · have hi' : v.instant = none := by rw [← hv]; exact hi
    exact ((State.refilterPins s countPinNumbers v (by decide)).2.2.2 hi').trans (by rw [← hv]; rfl)

/-- A boundary outside RUNNING (R74): a pending commit is applied, and every mark is disarmed with it. -/
theorem State.pendingCopy_idle (h : (s.chan k).state ≠ .running) :
    (s.pendingCopy k).chan k = (s.chan k).settled s.inputs ∧ s.onlyRestarts (s.pendingCopy k)
      ∧ (s.instant = none → (s.pendingCopy k).inputs.restarted = s.inputs.restarted)
      ∧ s.pendingCopy k = { s with inputs := (s.pendingCopy k).inputs, channels := (s.pendingCopy k).channels } := by
  unfold State.pendingCopy Channel.settled
  by_cases hpending : (s.chan k).commitPending = true
  · obtain ⟨hchan, hrestarts, hinstant⟩ := State.copyStaged_idle h
    obtain ⟨-, -, hfields⟩ := s.copyStaged_cases k
    rw [if_pos hpending, if_pos hpending]
    refine ⟨?_, ?_, hinstant, ?_⟩
    · rw [State.chan_modChan_same, hchan, if_neg (by exact h)]; rfl
    · refine State.onlyRestarts_congr hrestarts rfl (fun _ => rfl) (fun _ => rfl) rfl fun i => ?_
      rw [State.chan_modChan]
      split
      next hi => rw [hi]
      next => rfl
    · generalize s.copyStaged k = v at hfields
      rw [hfields]; rfl
  · rw [if_neg hpending, if_neg hpending]
    exact ⟨rfl, s.onlyRestarts_refl, fun _ => rfl, rfl⟩

/-! ### HALT of one channel (R96) -/

/-- The channel as HALT leaves it (R96): IDLE, its run ended and its fault over, a pending commit applied. -/
def Channel.halted (c : Channel) (f : FrontEnd) : Channel :=
  let d := if c.commitPending then c.withStagedActive f else c
  { d with
    state := .idle, arming := Arming.disarmed d.active.order, stallLeft := none, resyncPending := false
    windowLeft := none, faultedBy := none }

theorem Channel.halted_congr {f g : FrontEnd} (h : f.din = g.din) (c : Channel) : c.halted f = c.halted g := by
  rw [Channel.halted, Channel.halted, Channel.withStagedActive_congr h]

/-- A ledger record of the fault that a channel remembers. -/
def Channel.remembers (c : Channel) (kind : LedgerKind) : Bool := c.faultedBy.any fun f => f.kind == kind

theorem Channel.remembers_iff (c : Channel) (kind : LedgerKind) : c.remembers kind = true ↔
    (kind = .stall ∧ c.faultedBy = some .stall) ∨ (kind = .overflow ∧ c.faultedBy = some .overflow) := by
  unfold Channel.remembers
  cases c.faultedBy with
  | none => simp
  | some f => cases f <;> cases kind <;> decide

/-- The record is of the fault of a named channel. -/
def State.faultOver (s : State) (named : Fin 6 → Bool) (r : LedgerRecord) : Bool :=
  channelNumbers.any fun k => named k && (r.source == .channel k && (s.chan k).remembers r.kind)

theorem State.faultOver_iff (s : State) (named : Fin 6 → Bool) (r : LedgerRecord) : s.faultOver named r = true ↔
    ∃ k : Fin 6, named k = true ∧ r.source = .channel k ∧ (s.chan k).remembers r.kind = true := by
  simp [State.faultOver, mem_channelNumbers]

/-- From s to t the named channels have been halted, and nothing else has changed. -/
structure State.Halts (s t : State) (named : Fin 6 → Bool) : Prop where
  fields : t = { s with
    inputs := t.inputs, channels := t.channels, matrix := t.matrix
    trip := { s.trip with handed := t.trip.handed }, ledger := { s.ledger with records := t.ledger.records } }
  restarted : s.instant = none → t.inputs.restarted = s.inputs.restarted
  acted : ∀ k : Fin 6, named k = true → t.chan k = (s.chan k).halted s.inputs
  others : ∀ k : Fin 6, named k = false → t.chan k = s.chan k
  releases : s.onlyReleases t named
  restarts : s.onlyRestarts t
  handed : ∀ k : Fin 6, t.trip.handed[k] = (s.trip.handed[k] && !(named k && (s.chan k).faultedBy.isSome))
  records : t.ledger.records = s.ledger.records.map fun r => if s.faultOver named r then { r with active := false } else r

theorem State.Halts.refl (s : State) : s.Halts s fun _ => false where
  fields := rfl
  restarted _ := rfl
  acted := by simp
  others _ _ := rfl
  releases := s.onlyReleases_refl
  restarts := s.onlyRestarts_refl
  handed k := by simp
  records := by simp [State.faultOver]

/-- The run has ended and the channel is IDLE, its fault and a pending commit still to be settled. -/
theorem State.endRun_idle (s : State) (k : Fin 6) :
    let t := (s.endRun k).modChan k ({ · with state := .idle })
    t = { s with channels := t.channels, matrix := t.matrix }
      ∧ (∀ i : Fin 6, t.chan i = if i = k then { s.chan k with
          state := .idle, arming := Arming.disarmed (s.chan k).active.order, stallLeft := none, resyncPending := false
          windowLeft := none } else s.chan i)
      ∧ s.onlyReleases t (· == k) := by
  have hreleases := (s.releaseLines_cases k).1
  refine ⟨?_, fun i => ?_, State.onlyReleases_modChan (State.onlyReleases_modChan (s.releaseLines_onlyReleases k) k _) k _⟩
  · unfold State.endRun
    generalize s.releaseLines k = v at hreleases
    rw [hreleases]; rfl
  · rw [State.chan_modChan, State.endRun_chan]
    split
    · rfl
    next hi => exact (s.endRun_frame k).others i hi

/-- The fault that a channel remembers is over: its cause, its record and its handed flag (R96, R165, R179). -/
theorem State.leaveFaulted_cases (s : State) (k : Fin 6) :
    let t := s.leaveFaulted k (s.chan k).faultedBy
    t = { s with channels := t.channels, trip := { s.trip with handed := t.trip.handed }
                 ledger := { s.ledger with records := t.ledger.records } }
      ∧ (∀ i : Fin 6, t.chan i = if i = k then { s.chan k with faultedBy := none } else s.chan i)
      ∧ (∀ i : Fin 6, t.trip.handed[i] = (s.trip.handed[i] && !((i == k) && (s.chan i).faultedBy.isSome)))
      ∧ t.ledger.records = s.ledger.records.map fun r => if s.faultOver (· == k) r then { r with active := false } else r := by
  have hover : ∀ r : LedgerRecord, s.faultOver (· == k) r = (r.source == .channel k && (s.chan k).remembers r.kind) := fun r => by
    rw [Bool.eq_iff_iff, State.faultOver_iff]; simp
  simp only [hover, Channel.remembers]
  cases hf : (s.chan k).faultedBy with
  | none =>
    refine ⟨rfl, fun i => ?_, fun i => ?_, by simp [State.leaveFaulted]⟩
    · split
      next hi => rw [State.leaveFaulted, hi, ← hf]
      next => rfl
    · by_cases hi : i = k
      · rw [hi, hf]; simp [State.leaveFaulted]
      · simp [State.leaveFaulted, beq_eq_false_iff_ne.mpr hi]
  | some f =>
    refine ⟨rfl, fun i => State.chan_modChan _ _ _ _, fun i => ?_, ?_⟩
    · by_cases hi : i = k
      · subst hi
        simp [State.leaveFaulted, State.setHanded, hf]
      · have hne : k.val ≠ i.val := fun hx => hi (Fin.ext hx.symm)
        simp [State.leaveFaulted, State.setHanded, beq_eq_false_iff_ne.mpr hi, Vector.getElem_set_ne, hne, State.setCondition]
    · rw [State.leaveFaulted, State.modChan_ledger, State.setHanded, State.withTrip_ledger, State.setCondition_eq]
      refine List.map_congr_left fun r _ => ?_
      refine if_congr ?_ rfl rfl
      rw [Bool.and_eq_true, beq_iff_eq, Option.any_some, beq_iff_eq]
      exact and_congr_right fun _ => eq_comm

theorem State.onlyReleases_of_matrix {named : Fin 6 → Bool} (h : s.onlyReleases t named) (hm : u.matrix = t.matrix) :
    s.onlyReleases u named := by
  have hline : ∀ n, u.line n = t.line n := fun n => by rw [State.line, State.line, hm]
  have hpair : ∀ j, u.pair j = t.pair j := fun j => by rw [State.pair, State.pair, hm]
  simp only [State.onlyReleases, hline, hpair, hm]
  exact h

/-- HALT of one channel. -/
theorem State.haltChannel_cases (s : State) (k : Fin 6) : s.Halts (s.haltChannel k) (· == k) := by
  obtain ⟨hv, hvchan, hvreleases⟩ := s.endRun_idle k
  unfold State.haltChannel
  generalize (s.endRun k).modChan k ({ · with state := .idle }) = v at hv hvchan hvreleases
  have hfault : ∀ i : Fin 6, (v.chan i).faultedBy = (s.chan i).faultedBy := fun i => by
    rw [hvchan]; split
    next hi => rw [hi]
    next => rfl
  obtain ⟨hx, hxchan, hxhanded, hxrecords⟩ := v.leaveFaulted_cases k
  rw [hfault k] at hx hxchan hxhanded hxrecords
  generalize v.leaveFaulted k (s.chan k).faultedBy = x at hx hxchan hxhanded hxrecords
  have hxk : x.chan k = { s.chan k with
      state := .idle, arming := Arming.disarmed (s.chan k).active.order, stallLeft := none, resyncPending := false
      windowLeft := none, faultedBy := none } := by
    rw [hxchan, if_pos rfl, hvchan, if_pos rfl]
  have hxi : ∀ i : Fin 6, i ≠ k → x.chan i = s.chan i := fun i hi => by rw [hxchan, if_neg hi, hvchan, if_neg hi]
  have hxinputs : x.inputs = s.inputs := by rw [hx, hv]
  have hxactive : ∀ i : Fin 6, (x.chan i).active = (s.chan i).active := fun i => by
    by_cases hi : i = k
    · rw [hi, hxk]
    · rw [hxi i hi]
  obtain ⟨hchan, hrestarts, hinstant, hy⟩ := State.pendingCopy_idle (s := x) (k := k) (by rw [hxk]; exact nofun)
  have hothers := (x.pendingCopy_frame k).others
  generalize x.pendingCopy k = y at hchan hrestarts hinstant hy hothers
  refine ⟨?_, fun hi => ?_, fun i hi => ?_, fun i hi => ?_, ?_, ?_, fun i => ?_, ?_⟩
  · rw [hy, hx, hv]
  · rw [hinstant (by rw [hx, hv]; exact hi), hxinputs]
  · rw [beq_iff_eq.mp hi, hchan, hxk, hxinputs, Channel.settled, Channel.halted]
    cases (s.chan k).commitPending <;> rfl
  · have hi : i ≠ k := by simpa using hi
    rw [hothers i hi, hxi i hi]
  · exact State.onlyReleases_of_matrix hvreleases (by rw [hy, hx])
  · exact State.onlyRestarts_congr hrestarts (by rw [hxinputs]) (fun p => by rw [State.countPin, State.countPin, hxinputs])
      (fun i => (hxactive i).symm) rfl fun _ => rfl
  · rw [show y.trip = x.trip by rw [hy], hxhanded, hfault, show v.trip = s.trip by rw [hv]]
  · have hover : ∀ r, v.faultOver (· == k) r = s.faultOver (· == k) r := fun r => by
      simp only [State.faultOver, Channel.remembers, hfault]
    rw [show y.ledger = x.ledger by rw [hy], hxrecords, show v.ledger = s.ledger by rw [hv]]
    simp only [hover]

/-- The records of one more channel's fault turn STANDING. -/
theorem State.faultOver_or {named : Fin 6 → Bool} (h : s.Halts t named) (hk : named k = false) (r : LedgerRecord) :
    s.faultOver (fun i => named i || i == k) r = (s.faultOver named r || t.faultOver (· == k) r) := by
  rw [Bool.eq_iff_iff, Bool.or_eq_true, State.faultOver_iff, State.faultOver_iff, State.faultOver_iff]
  constructor
  · rintro ⟨i, hi, hsource, hkind⟩
    obtain hi | hi := Bool.or_eq_true_iff.mp hi
    · exact .inl ⟨i, hi, hsource, hkind⟩
    · exact .inr ⟨i, hi, hsource, by rw [h.others i (beq_iff_eq.mp hi ▸ hk)]; exact hkind⟩
  · rintro (⟨i, hi, hsource, hkind⟩ | ⟨i, hi, hsource, hkind⟩)
    · exact ⟨i, by simp [hi], hsource, hkind⟩
    · refine ⟨i, by simp [hi], hsource, ?_⟩
      rw [h.others i (beq_iff_eq.mp hi ▸ hk)] at hkind
      exact hkind

/-- HALT of one further channel. -/
theorem State.Halts.haltChannel {named : Fin 6 → Bool} (h : s.Halts t named) (hk : named k = false) :
    s.Halts (t.haltChannel k) fun i => named i || i == k := by
  have h' := t.haltChannel_cases k
  have hpermit : t.trip.permit = s.trip.permit := by rw [h.fields]
  refine ⟨by rw [h'.fields, h.fields], fun hi => ?_, fun i hi => ?_, fun i hi => ?_,
    State.onlyReleases_trans h.releases hpermit h'.releases, State.onlyRestarts_trans (fun i => ?_) h.restarts h'.restarts,
    fun i => ?_, ?_⟩
  · exact (h'.restarted (by rw [h.fields]; exact hi)).trans (h.restarted hi)
  · by_cases hik : i = k
    · rw [h'.acted i (by simpa using hik), h.others i (hik ▸ hk)]
      exact Channel.halted_congr h.restarts.1 _
    · rw [h'.others i (by simpa using hik), h.acted i (by simpa [hik] using hi)]
  · obtain ⟨hi, hik⟩ := Bool.or_eq_false_iff.mp hi
    rw [h'.others i hik, h.others i hi]
  · by_cases hik : i = k
    · exact .inl (by rw [h.others i (hik ▸ hk)])
    · exact .inr (by rw [h'.others i (by simpa using hik)])
  · rw [h'.handed, h.handed]
    by_cases hik : i = k
    · subst hik
      rw [h.others i hk, hk]; simp
    · simp [beq_eq_false_iff_ne.mpr hik]
  · rw [h'.records, h.records, List.map_map]
    refine List.map_congr_left fun r _ => ?_
    have hstood : ∀ b : Bool, t.faultOver (· == k) (if b then { r with active := false } else r) = t.faultOver (· == k) r :=
      fun b => by cases b <;> rfl
    rw [Function.comp_apply, hstood, State.faultOver_or h hk]
    cases s.faultOver named r <;> cases t.faultOver (· == k) r <;> rfl

theorem ChannelState.haltable_eq (x : ChannelState) : x.haltable = decide (x ≠ .off ∧ x ≠ .idle ∧ x ≠ .lent) := by
  cases x <;> rfl

/-- Settles O32: HALT is the per-channel command whose act is the halt of a channel. -/
theorem haltActsPerChannel : Obligations.HaltActsPerChannel := by
  intro s m rest w h hm hbody
  rw [exec_device_word (c := .halt) rfl rfl h hm hbody]
  refine ⟨fun hbad => ?_, fun hhigh hlow => ?_⟩
  · rw [perChannel_refused hbody ((maskValid_eq_false w).mpr hbad)]; rfl
  intro acts troubled
  have hvalid := (maskValid_iff w).mpr ⟨hhigh, hlow⟩
  have hlegal : ∀ k, State.haltLegal (s.takeMessage rest) k =
      decide ((s.chan k).state ≠ .off ∧ (s.chan k).state ≠ .idle ∧ (s.chan k).state ≠ .lent) := fun k =>
    ChannelState.haltable_eq _
  have hhalts := perChannel_effect (effect := (s.takeMessage rest).Halts) (legal := State.haltLegal) hbody hvalid
    (.refl _) fun t named k ht hk => ht.haltChannel hk
  obtain ⟨code, body, hreply, hdone, hpartly⟩ := perChannel_reply (s := s.takeMessage rest) (act := State.haltChannel)
    (legal := State.haltLegal) hbody hvalid
  simp only [hlegal] at hhalts hdone hpartly
  rw [hreply]
  generalize (perChannel State.haltLegal State.haltChannel m (s.takeMessage rest)).1 = t at hhalts
  have hinputs : t.inputs = ⟨t.inputs.count, s.inputs.din, 0#12⟩ := by
    have hdin : t.inputs.din = s.inputs.din := hhalts.restarts.1
    have hrestarted : t.inputs.restarted = 0#12 := hhalts.restarted rfl
    rw [← hdin, ← hrestarted]
  have hrestarts : s.onlyRestarts t := State.onlyRestarts_congr hhalts.restarts rfl (fun _ => rfl) (fun _ => rfl) rfl fun _ => rfl
  have hacted : ∀ k : Fin 6, acts k = true → t.chan k = (s.chan k).halted s.inputs := fun k hk => by
    have htaken : t.chan k = (s.chan k).halted (s.takeMessage rest).inputs := hhalts.acted k hk
    rw [htaken]
    exact Channel.halted_congr (g := s.inputs) rfl _
  have hover : ∀ r : LedgerRecord, (s.takeMessage rest).faultOver acts r = true ↔ ∃ k : Fin 6, troubled k r := fun r => by
    simp only [State.faultOver_iff, Channel.remembers_iff]
    rfl
  have hrecords := hhalts.records.trans (List.map_congr_left fun r _ => if_congr (hover r) rfl rfl)
  refine ⟨_, rfl, ⟨code, body, ?_, hdone, hpartly⟩, hacted, hhalts.others, hhalts.releases, hrestarts, hhalts.handed, hrecords⟩
  rw [hhalts.fields, hinputs]; rfl

end Sys2Proof.Machine
end

section
/-! Offered notices: admission and loss, and the words of every notice as fields side by side (R27, R28, R30, R102 to
R104, R123, R130, R175, R176, R182). -/

namespace Sys2Proof.Machine

variable {s t : State} {k : Fin 6}

/-! ### Words as fields side by side -/

theorem place_zero_self (w : Word) : place 0 w = w := by simp [place]

theorem place_zero (lo n : Nat) : place lo 0#n = 0#32 := by simp [place]

/-- Fields side by side are the words of each, one above the other. -/
theorem place_append {n m : Nat} (lo : Nat) (x : BitVec n) (y : BitVec m) :
    place lo (x ++ y) = place lo y ||| place (lo + m) x := by
  apply BitVec.eq_of_getLsbD_eq
  intro i hi
  simp only [BitVec.getLsbD_or, getLsbD_place, BitVec.getLsbD_append, hi, and_true]
  by_cases h : lo ≤ i
  · by_cases h' : i - lo < m
    · simp [h, h', show ¬lo + m ≤ i by omega]
    · simp [h, h', show lo + m ≤ i by omega, BitVec.getLsbD_of_ge y (i - lo) (by omega), Nat.sub_sub]
  · simp [h, show ¬lo + m ≤ i by omega]

theorem placeNat_eq_place {w n : Nat} (lo : Nat) (h : n < 2 ^ w) : placeNat lo n = place lo (BitVec.ofNat w n) := by
  apply BitVec.eq_of_getLsbD_eq
  intro i hi
  rw [getLsbD_placeNat, getLsbD_place, BitVec.getLsbD_ofNat]
  by_cases hw : i - lo < w
  · simp [hw]
  · have hbit : n.testBit (i - lo) = false :=
      Nat.testBit_lt_two_pow (h.trans_le (Nat.pow_le_pow_right (by decide) (by omega)))
    simp [hbit]

theorem placeFlag_eq_place (lo : Nat) (b : Bool) : placeFlag lo b = place lo (BitVec.ofBool b) := rfl

/-- A word of two halves, the low one an ordinal in most notices. -/
theorem append_halves (x y : BitVec 16) : x ++ y = place 0 y ||| place 16 x :=
  (place_zero_self _).symm.trans (place_append 0 x y)

/-- A word that is 0 above its low n bits. -/
theorem extend_of_high_zero {w : Word} {n m : Nat} (h : ∀ i, n ≤ i → w.getLsbD i = false) (lo : Nat) :
    place lo (0#m ++ w.setWidth n) = w <<< lo := by
  apply BitVec.eq_of_getLsbD_eq
  intro i hi
  rw [place_append, place_zero, BitVec.or_zero, getLsbD_place, BitVec.getLsbD_setWidth, BitVec.getLsbD_shiftLeft]
  by_cases hlo : lo ≤ i
  · by_cases hn : i - lo < n
    · simp [hlo, hn, hi]
    · simp [hlo, hi, h (i - lo) (by omega)]
  · simp [hlo, show i < lo by omega]

/-! ### Heads and the counters of lost notices (R28, R30) -/

theorem or_reverse (a b c d : Word) : a ||| b ||| c ||| d = d ||| (c ||| (b ||| a)) := by ac_rfl

theorem makeHead_eq (kind tag : Byte) (channel : BitVec 4) (length : Nat) :
    makeHead kind tag channel length 0#9 = kind ++ tag ++ channel ++ BitVec.ofNat 3 length ++ 0#9 := by
  rw [← place_zero_self (kind ++ tag ++ channel ++ BitVec.ofNat 3 length ++ 0#9),
    place_append 0 (kind ++ tag ++ channel ++ BitVec.ofNat 3 length) 0#9,
    place_append _ (kind ++ tag ++ channel) (BitVec.ofNat 3 length), place_append _ (kind ++ tag) channel,
    place_append _ kind tag, makeHead]
  simp only [place_zero, BitVec.zero_or, BitVec.or_zero, Nat.reduceAdd]
  exact or_reverse _ _ _ _

theorem Outbox.lostWord_eq (o : Outbox) : o.lostWord = o.lostSafety ++ o.lostData ++ o.lostRun ++ o.lostMark := by
  rw [← place_zero_self (o.lostSafety ++ o.lostData ++ o.lostRun ++ o.lostMark),
    place_append 0 (o.lostSafety ++ o.lostData ++ o.lostRun) o.lostMark,
    place_append 8 (o.lostSafety ++ o.lostData) o.lostRun, place_append 16 o.lostSafety o.lostData, Outbox.lostWord,
    BitVec.or_assoc, BitVec.or_assoc]

theorem Outbox.lostAny_iff (o : Outbox) :
    o.lostAny = true ↔ o.lostMark ≠ 0#8 ∨ o.lostRun ≠ 0#8 ∨ o.lostData ≠ 0#8 ∨ o.lostSafety ≠ 0#8 := by
  simp [Outbox.lostAny, or_assoc]

/-- The Outbox with the losses so far reported. -/
def Outbox.reported (o : Outbox) (n : Notice) : Outbox := (o.enqueue (o.lossNotice n)).clearLost

theorem Outbox.reported_admits (o : Outbox) (n : Notice) : (o.reported n).admits = true ↔
    o.noticeCount + 1 < 24 ∧ o.rnq.length + 1 + (if o.reserved then 1 else 0) < 32 := by
  rw [Outbox.admits_iff, Outbox.reported, Outbox.noticeCount_clearLost, Outbox.noticeCount_enqueue]
  simp only [Outbox.clearLost, Outbox.enqueue, List.length_append, List.length_singleton]
  exact Iff.rfl

/-- The LOSS notice that stands in front of a notice (R28). -/
theorem Outbox.lossNotice_message (o : Outbox) (n : Notice) : (o.lossNotice n).message o.sequence =
    ⟨makeHead 0xC8#8 o.sequence 15#4 2 0#9,
      [n.body.headD 0#32 &&& 0xFFFF#32, o.lostSafety ++ o.lostData ++ o.lostRun ++ o.lostMark]⟩ := by
  rw [← o.lostWord_eq]; rfl

/-! ### Admission and loss (R27, R28) -/

/-- A notice that is not admitted is lost. -/
theorem State.offer_lost (n : Notice) (h : ¬s.out.admits = true) :
    s.offer n = (s.withOut (s.out.lose n.kind)).withPort { s.port with noticeLostSticky := true } := if_neg h

/-- With nothing lost an admitted notice enters. -/
theorem State.offer_enters (n : Notice) (h : s.out.admits = true) (hlost : ¬s.out.lostAny = true) :
    s.offer n = s.withOut (s.out.enqueue n) := by
  rw [State.offer, if_pos h, Outbox.reportLosses, if_neg hlost]
  exact if_pos h

/-- With losses so far, the LOSS notice enters, and the notice behind it if there is room. -/
theorem State.offer_afterLosses (n : Notice) (h : s.out.admits = true) (hlost : s.out.lostAny = true) :
    s.offer n = if (s.out.reported n).admits then s.withOut ((s.out.reported n).enqueue n)
      else (s.withOut ((s.out.reported n).lose n.kind)).withPort { s.port with noticeLostSticky := true } := by
  rw [State.offer, if_pos h, Outbox.reportLosses, if_pos hlost]
  rfl

/-! ### The words of the notices -/

theorem captureNotice_eq (k : Fin 6) (r : CaptureRecord) {fill : Nat} (h : fill < 8) (dropped : Bool) :
    captureNotice k r fill dropped = ⟨.capture, channelField k,
      [0#8 ++ r.cause ++ BitVec.ofBool dropped ++ BitVec.ofNat 3 fill ++ r.ordinal, r.value]⟩ := by
  rw [captureNotice, append_halves]
  simp only [place_append, place_zero, BitVec.or_zero, placeFlag_eq_place, placeNat_eq_place (w := 3) _ h,
    BitVec.or_assoc]

theorem markHitNotice_eq (k : Fin 6) (c : Channel) {i : Nat} (h : i < 8) (m : Mark) (value : Word) (ordinal : BitVec 16) :
    markHitNotice k c i m value ordinal = ⟨.markHit, channelField k,
      [0#12 ++ BitVec.ofBool (c.active.mode == .pace && m.crossing == .falling) ++ BitVec.ofNat 3 i ++ ordinal, value,
       0#16 ++ c.markHitCount]⟩ := by
  rw [markHitNotice, append_halves, append_halves]
  simp only [place_append, place_zero, BitVec.or_zero, placeFlag_eq_place, placeNat_eq_place (w := 3) _ h,
    BitVec.or_assoc]

theorem runEndNotice_eq (k : Fin 6) (was : ChannelState) (c : Channel) (ordinal : BitVec 16) :
    runEndNotice k was c ordinal = ⟨.runEnd, channelField k,
      [0#14 ++ (if was = .quenched then 2#2 else 1#2) ++ ordinal, c.value,
       0#16 ++ (if c.active.mode = .loop then c.cycleIndex else 0#16)]⟩ := by
  have reason : placeNat 16 (if was = .quenched then 2 else 1) = place 16 (if was = .quenched then 2#2 else 1#2) := by
    split <;> rfl
  rw [runEndNotice, append_halves, append_halves, reason]
  simp only [place_append, place_zero, BitVec.or_zero]

theorem cycleEndNotice_eq (k : Fin 6) (cycleIndex : BitVec 16) (last : Bool) (ordinal : BitVec 16) :
    cycleEndNotice k cycleIndex last ordinal =
      ⟨.cycleEnd, channelField k, [cycleIndex ++ ordinal, if last then 1#32 else 0#32]⟩ := by
  rw [cycleEndNotice, append_halves]
  cases last <;> rfl

theorem stateNotice_eq (k : Fin 6) (new old : ChannelState) {cause : Nat} (h : cause < 8) (value : Word) (ordinal : BitVec 16) :
    stateNotice k new old cause value ordinal = ⟨.state, channelField k,
      [0#5 ++ BitVec.ofNat 3 cause ++ old.code ++ new.code ++ ordinal, value]⟩ := by
  rw [stateNotice, append_halves]
  simp only [place_append, place_zero, BitVec.or_zero, placeNat_eq_place (w := 3) _ h, BitVec.or_assoc]

/-- The cause set has twelve flags. -/
theorem State.causeSet_high (s : State) (c : TripConfig) (enabledOnly : Bool) {i : Nat} (h : 12 ≤ i) :
    (placeFlags 0 (s.causesUnder c enabledOnly)).getLsbD i = false := by
  rw [getLsbD_placeFlags, List.getD_eq_default _ _ (by simpa [State.causesUnder, bankNumbers, channelNumbers] using h),
    Bool.and_false]

theorem State.tripNotice_eq (s : State) (source : TripSource) (ordinal : BitVec 16) : s.tripNotice source ordinal =
    ⟨.trip, 15#4,
      [0#8 ++ BitVec.ofBool (s.trip.config.policy == .freeze) ++ source.place ++ 0#1 ++ source.code ++ ordinal,
       0#4 ++ s.enabledCauses.setWidth 12 ++ (ordinal - 1#16)]⟩ := by
  have causes : place 16 (0#4 ++ s.enabledCauses.setWidth 12) = s.enabledCauses <<< 16 :=
    extend_of_high_zero (fun i hi => s.causeSet_high _ _ hi) 16
  rw [State.tripNotice, append_halves, append_halves, causes]
  simp only [place_append, place_zero, BitVec.or_zero, placeFlag_eq_place, BitVec.or_assoc,
    BitVec.zero_or]
  rfl

/-- The high half of the first word of a PERMIT notice. -/
theorem place_grantHalf (channel : BitVec 3) (was : Bool) (grantor : BitVec 2) :
    place 16 (0#9 ++ channel ++ 0#1 ++ BitVec.ofBool was ++ grantor) =
      place 16 grantor ||| (place 18 (BitVec.ofBool was) ||| place 20 channel) := by
  rw [place_append 16 (0#9 ++ channel ++ 0#1 ++ BitVec.ofBool was) grantor, place_append 18 (0#9 ++ channel ++ 0#1) (BitVec.ofBool was),
    place_append 19 (0#9 ++ channel) 0#1, place_append 20 0#9 channel, place_zero, place_zero, BitVec.zero_or,
    BitVec.or_zero]

theorem State.permitNotice_eq (s : State) (auto : Option (Fin 6)) (previous : Permit) (ordinal : BitVec 16) :
    s.permitNotice auto previous ordinal = ⟨.permit, 15#4,
      [0#9 ++ (match auto with | some k => BitVec.ofNat 3 k.val | none => 0#3) ++ 0#1
          ++ BitVec.ofBool (previous == Permit.tripped) ++ (if auto.isSome then 2#2 else 1#2) ++ ordinal,
       0#20 ++ (s.presentCauses.setWidth 12 &&& ~~~s.enabledCauses.setWidth 12)]⟩ := by
  have causes : s.presentCauses &&& ~~~s.enabledCauses =
      0#20 ++ (s.presentCauses.setWidth 12 &&& ~~~s.enabledCauses.setWidth 12) := by
    apply BitVec.eq_of_getLsbD_eq
    intro i hi
    rw [BitVec.getLsbD_append]
    by_cases h : i < 12
    · simp [h, hi]
    · have hhigh : s.presentCauses.getLsbD i = false := s.causeSet_high _ _ (by omega)
      rw [BitVec.getLsbD_and, hhigh]
      simp [h]
  cases auto with
  | none =>
    rw [State.permitNotice, causes, append_halves, BitVec.or_assoc, BitVec.or_assoc]
    exact congrArg (fun high => Notice.mk .permit 15#4 [place 0 ordinal ||| high, _]) (place_grantHalf 0#3 _ 1#2).symm
  | some k =>
    have channel : placeNat 20 k.val = place 20 (BitVec.ofNat 3 k.val) := placeNat_eq_place 20 (show k.val < 2 ^ 3 by omega)
    rw [State.permitNotice, causes, append_halves, BitVec.or_assoc, BitVec.or_assoc, channel]
    exact congrArg (fun high => Notice.mk .permit 15#4 [place 0 ordinal ||| high, _]) (place_grantHalf _ _ 2#2).symm

/-- The FAULT notice of R182. -/
theorem faultNotice_eq (source : LedgerSource) (kind : LedgerKind) (present unrecorded : Bool) (ordinal : BitVec 16)
    {count : Nat} (h : count < 32) : faultNotice ⟨ordinal, source, kind, present, 0#4⟩ unrecorded count =
    ⟨.fault, source.noticeChannel,
      [0#7 ++ BitVec.ofNat 5 count ++ 0#3 ++ BitVec.ofBool unrecorded ++ ordinal,
       0#8 ++ BitVec.ofBool present ++ kind.code ++ source.code ++ ordinal]⟩ := by
  rw [faultNotice, LedgerRecord.word, append_halves, append_halves]
  simp only [place_append, place_zero, BitVec.or_zero, BitVec.zero_or, placeFlag_eq_place, placeNat_eq_place (w := 5) _ h, BitVec.or_assoc]

end Sys2Proof.Machine
end

section
/-! Which notice each event offers (R102 to R104, R122, R123, R127, R130, R175, R176, R180, R182). -/

namespace Sys2Proof.Machine

variable {s : State} {k : Fin 6}

/-! ### Admission and loss by cases (R28) -/

theorem Outbox.reported_enqueue (o : Outbox) (n : Notice) : (o.reported n).enqueue n =
    { o with
      rnq := o.rnq ++ [(o.lossNotice n).message o.sequence, n.message (o.sequence + 1#8)], sequence := o.sequence + 2#8
      lostMark := 0#8, lostRun := 0#8, lostData := 0#8, lostSafety := 0#8 } := by
  have tail : o.rnq ++ [(o.lossNotice n).message o.sequence] ++ [n.message (o.sequence + 1#8)] =
      o.rnq ++ [(o.lossNotice n).message o.sequence, n.message (o.sequence + 1#8)] := List.append_assoc _ _ _
  have next : o.sequence + 1#8 + 1#8 = o.sequence + 2#8 := BitVec.add_assoc _ _ _
  rw [← tail, ← next]; rfl

/-- A loss counted by no class but its own, from counters that are 0. -/
theorem Outbox.reported_lose (o : Outbox) (n : Notice) (hkind : n.kind ≠ .loss) : (o.reported n).lose n.kind =
    { o with
      rnq := o.rnq ++ [(o.lossNotice n).message o.sequence], sequence := o.sequence + 1#8
      lostMark := if n.kind = .markHit then 1#8 else 0#8
      lostRun := if n.kind = .runEnd ∨ n.kind = .cycleEnd ∨ n.kind = .state then 1#8 else 0#8
      lostData := if n.kind = .capture ∨ n.kind = .rateSample then 1#8 else 0#8
      lostSafety := if n.kind = .fault ∨ n.kind = .trip ∨ n.kind = .permit then 1#8 else 0#8 } := by
  have one : saturatingAdd 0#8 1 = 1#8 := rfl
  cases hk : n.kind <;> simp_all [Outbox.lose, Outbox.reported, Outbox.clearLost, Outbox.enqueue]

/-! ### Capture attempts and firing marks (R122, R123, R127, R130) -/

theorem Channel.takeRecord_eq (c : Channel) (r : CaptureRecord) (h : c.captures.length ≤ 4) : c.takeRecord r =
    if decide (c.captures.length = 4) then { c with overcapture := saturatingAdd c.overcapture 1 }
    else { c with captures := c.captures ++ [r] } := by
  unfold Channel.takeRecord fifoSlots
  by_cases hfull : c.captures.length = 4
  · simp [hfull]
  · simp [hfull, show c.captures.length < 4 by omega]

theorem Channel.takeRecord_fill (c : Channel) (r : CaptureRecord) (h : c.captures.length ≤ 4) :
    (c.takeRecord r).captures.length < 8 := by
  rw [c.takeRecord_eq r h]; split
  · exact h.trans_lt (by decide)
  · simp; omega

theorem State.captureAttempt_eq (s : State) (k : Fin 6) (cause : BitVec 4) (value : Word)
    (h : (s.chan k).captures.length ≤ 4) :
    let r : CaptureRecord := ⟨value, (s.chan k).captureIndex, cause, s.out.ordinal⟩
    s.captureAttempt k cause value = (s.nextOrdinal.modChan k (·.takeRecord r)).offer ⟨.capture, channelField k,
      [0#8 ++ cause ++ BitVec.ofBool (decide ((s.chan k).captures.length = 4))
        ++ BitVec.ofNat 3 ((s.chan k).takeRecord r).captures.length ++ s.out.ordinal, value]⟩ := by
  intro r
  have full : decide (fifoSlots ≤ (s.chan k).captures.length) = decide ((s.chan k).captures.length = 4) :=
    decide_eq_decide.2 (show 4 ≤ _ ↔ _ by omega)
  have taken : ((s.nextOrdinal.modChan k (·.takeRecord r)).chan k) = (s.chan k).takeRecord r :=
    State.chan_modChan_same _ k _
  rw [State.captureAttempt, full, taken, captureNotice_eq k r ((s.chan k).takeRecord_fill r h)]

/-- The line action of a mark, by its fields (R109, R122). -/
theorem State.markAction_eq (s : State) (m : Mark) : s.markAction m =
    match m.line, m.action with
    | some n, .set => s.lineAction n .set
    | some n, .clear => s.lineAction n .clear
    | some n, .toggle => s.lineAction n .toggle
    | some n, .pulse => s.lineAction n (.pulse m.width)
    | none, _ | some _, .nothing => s := by
  unfold State.markAction Mark.lineAction
  cases m.line with
  | none => rfl
  | some n => cases m.action <;> rfl

/-! ### Changes of state by a term (R104) -/

theorem State.reportState_eq {new old : ChannelState} {cause : Nat} (h : (s.chan k).state = new) (hcause : cause < 8) :
    s.reportState k old cause = if (s.chan k).active.notifyState then
        s.nextOrdinal.offer ⟨.state, channelField k,
          [0#5 ++ BitVec.ofNat 3 cause ++ old.code ++ new.code ++ s.out.ordinal, (s.chan k).value]⟩
      else s.nextOrdinal := by
  rw [State.reportState, h, stateNotice_eq k new old hcause]
  rfl

/-! ### Grants, withdrawals and fault occurrences (R175, R176, R180, R182) -/

theorem State.faultOccurrence_repeats (s : State) (source : LedgerSource) (kind : LedgerKind) (present : Bool)
    (h : ∃ x ∈ s.ledger.records, x.source = source ∧ x.kind = kind) : s.faultOccurrence source kind present =
      s.nextOrdinal.withLedger { s.ledger with records := repeatIn source kind present s.ledger.records } :=
  if_pos (by simpa [List.any_eq_true, LedgerRecord.isFor] using h)

/-- A new occurrence takes a record, or without room is marked lost, and is told of by a FAULT notice. -/
theorem State.faultOccurrence_new (s : State) (source : LedgerSource) (kind : LedgerKind) (present : Bool)
    (h : ∀ x ∈ s.ledger.records, ¬(x.source = source ∧ x.kind = kind)) :
    let r : LedgerRecord := ⟨s.out.ordinal, source, kind, present, 0#4⟩
    s.faultOccurrence source kind present = if s.ledger.records.length < 16 then
        (s.nextOrdinal.withLedger { s.ledger with records := s.ledger.records ++ [r] }).offer
          (faultNotice r false (s.ledger.records ++ [r]).length)
      else (s.nextOrdinal.withLedger { s.ledger with lost := true }).offer
        (faultNotice r true s.ledger.records.length) := by
  intro r
  rw [List.length_append]
  exact if_neg (by simpa [List.any_eq_true, LedgerRecord.isFor] using h)

/-! ### The notices of every event -/

/-- Settles O54: the four outcomes of an offer are those of `State.offer_lost`, `State.offer_enters` and
`State.offer_afterLosses`; every event is its model's own, with the words of its notice as fields. -/
theorem offeredNoticeEntersOrIsLost : Obligations.OfferedNoticeEntersOrIsLost := by
  refine ⟨fun s kind channel body hkind => ?offered, fun kind channel body tag hbody => ?head,
    fun s k cause value hfifo => ?capture, fun s k i m value hi => ?mark, fun s k => ?ends, fun s k => ?states,
    fun s source => ?withdrawn, fun s auto => ?granted, fun s source kind present => ?fault⟩
  case offered =>
    intro n room lost loss
    have loss_eq : loss = (s.out.lossNotice n).message s.out.sequence := (s.out.lossNotice_message n).symm
    have admits : s.out.admits = true ↔ room 0 := s.out.admits_iff
    have behind : (s.out.reported n).admits = true ↔ room 1 := s.out.reported_admits n
    have hlost : s.out.lostAny = true ↔ lost := s.out.lostAny_iff
    rw [loss_eq]
    refine ⟨fun h => ?_, fun h hl => ?_, fun h hl => ?_, fun h h1 hl => ?_⟩
    · rw [State.offer_lost n (mt admits.1 h)]
      cases kind <;> rfl
    · exact State.offer_enters n (admits.2 h) (mt hlost.1 hl)
    · have h0 : room 0 := by obtain ⟨h1, h2⟩ := h; exact ⟨by omega, by omega⟩
      rw [State.offer_afterLosses n (admits.2 h0) (hlost.2 hl), if_pos (behind.2 h), Outbox.reported_enqueue]
      rfl
    · rw [State.offer_afterLosses n (admits.2 h) (hlost.2 hl), if_neg (mt behind.1 h1), Outbox.reported_lose _ _ hkind]
      rfl
  case head =>
    rw [Notice.message, makeHead_eq]
    cases kind <;> rfl
  case capture =>
    intro c r dropped d stamped
    have hd : d = c.takeRecord r := (c.takeRecord_eq r hfifo).symm
    rw [State.captureAttempt_eq s k cause value hfifo]
    simp only [stamped, hd]
    rfl
  case mark =>
    intro acted u c stamped
    have hacted : s.markAction m = acted := s.markAction_eq m
    rw [State.fireMark, hacted, markHitNotice_eq _ _ hi]
    rfl
  case ends =>
    intro t c stamped ended
    have hended : runEndNotice k (s.chan k).state c t.out.ordinal = ended := runEndNotice_eq _ _ _ _
    refine ⟨?_, ?_, ?_⟩
    · rw [State.completeRun, hended]; rfl
    · rw [State.finalCycleEnd, hended, cycleEndNotice_eq]; rfl
    · rw [State.wrap, cycleEndNotice_eq]; rfl
  case states =>
    intro told
    refine ⟨fun h => ?_, fun h => ?_, fun h => ?_⟩
    · have new : ((s.modChan k Channel.beginRun).chan k).state = .running := by
        rw [State.chan_modChan_same, Channel.beginRun_eq]
      rw [State.startEdge, if_pos h, State.reportState_eq new (by decide)]; rfl
    · have new : ((s.enterQuenched k).chan k).state = .quenched := by
        rw [s.enterQuenched_cases k |>.acted k (beq_self_eq_true k)]; rfl
      rw [State.quenchEdge, if_pos h, State.reportState_eq new (by decide)]; rfl
    · have new : ((s.restartChannel k).chan k).state = .running := by
        rw [State.restartChannel, State.chan_modChan_same, Channel.returnToRunning_eq]
      rw [State.restartEdge, if_pos h, State.reportState_eq new (by decide)]; rfl
  case withdrawn =>
    intro t stamped
    have policy : t.trip.config = s.trip.config := by rw [State.setPermit_trip]
    rw [State.withdraw, State.tripNotice_eq, policy]
    cases source <;> rfl
  case granted =>
    intro t
    rw [State.grant, State.permitNotice_eq]
    rfl
  case fault =>
    intro t r channel told hledger
    refine ⟨fun h => ?_, fun h => ?_⟩
    · rw [State.faultOccurrence_repeats s source kind present h, repeatIn_eq_map]; rfl
    · rw [State.faultOccurrence_new s source kind present h]
      have hnew : (s.ledger.records ++ [r]).length < 32 := by
        rw [List.length_append]; exact (Nat.add_le_add_right hledger 1).trans_lt (by decide)
      split
      · rw [faultNotice_eq source kind present false s.out.ordinal hnew]
        cases source <;> cases kind <;> rfl
      · rw [faultNotice_eq source kind present true s.out.ordinal (hledger.trans_lt (by decide))]
        cases source <;> cases kind <;> rfl

end Sys2Proof.Machine
end

section
/-! Term edges (R52, R83, R92 to R95, R104, R126): what an edge does to its channel, and the evaluation of one channel. -/

namespace Sys2Proof.Machine

variable {s t u : State} {k : Fin 6}

/-! ### Edges as functions of the channel -/

def Channel.startEdge (c : Channel) : Channel := if c.state = .armed then c.beginRun else c

def Channel.quenchEdge (c : Channel) : Channel := if c.state = .running then c.quenched else c

def Channel.restartEdge (c : Channel) : Channel := if c.state = .quenched then c.rearmForRestart.enterRunning else c

def Channel.resyncEdge (c : Channel) : Channel :=
  if c.active.mode = .loop ∧ c.state.counts = true then { c with resyncPending := true } else c

/-- The value a capture source takes (R128). -/
def Channel.sourceValue (c : Channel) : Word := if c.active.mode = .pace then c.accumulator else c.value

def Channel.captureEdge (c : Channel) (ordinal : BitVec 16) : Channel :=
  if c.state.counts then c.takeRecord ⟨c.sourceValue, c.captureIndex, 0#4, ordinal⟩ else c

/-- The three edges that change the state, in the order of R52. -/
def Channel.moves (c : Channel) (start quench restart : Bool) : Channel :=
  let a := if start then c.startEdge else c
  let b := if quench then a.quenchEdge else a
  if restart then b.restartEdge else b

/-- The four term edges in the order of R52. -/
def Channel.termEdges (c : Channel) (start quench restart resync : Bool) : Channel :=
  if resync then (c.moves start quench restart).resyncEdge else c.moves start quench restart

/-- A change of state by a term leaves the fields that it does not name. -/
def Channel.SameButRun (c d : Channel) : Prop :=
  d = { c with state := d.state, stallLeft := d.stallLeft, windowLeft := d.windowLeft, arming := d.arming }

theorem Channel.SameButRun.refl (c : Channel) : c.SameButRun c := rfl

theorem Channel.SameButRun.trans {c d e : Channel} (h : c.SameButRun d) (h' : d.SameButRun e) : c.SameButRun e := by
  unfold Channel.SameButRun at *
  rw [h', h]

theorem Channel.SameButRun.ite {p : Prop} [Decidable p] {c d e : Channel} (hd : c.SameButRun d) (he : c.SameButRun e) :
    c.SameButRun (if p then d else e) := by
  split
  · exact hd
  · exact he

theorem Channel.startEdge_same (c : Channel) : c.SameButRun c.startEdge :=
  .ite (by rw [Channel.beginRun_eq]; rfl) (.refl c)

theorem Channel.quenchEdge_same (c : Channel) : c.SameButRun c.quenchEdge := .ite rfl (.refl c)

theorem Channel.restartEdge_same (c : Channel) : c.SameButRun c.restartEdge :=
  .ite (by rw [Channel.returnToRunning_eq]; rfl) (.refl c)

theorem Channel.moves_same (c : Channel) (start quench restart : Bool) : c.SameButRun (c.moves start quench restart) := by
  have step : ∀ (b : Bool) {d e : Channel}, d.SameButRun e → d.SameButRun (if b then e else d) :=
    fun b d _ h => .ite h (.refl d)
  exact ((step _ (Channel.startEdge_same _)).trans (step _ (Channel.quenchEdge_same _))).trans
    (step _ (Channel.restartEdge_same _))

theorem Channel.resyncEdge_eq (c : Channel) : c.resyncEdge =
    { c with resyncPending := c.resyncPending || decide (c.active.mode = .loop ∧ c.state.counts = true) } := by
  unfold Channel.resyncEdge
  by_cases h : c.active.mode = .loop ∧ c.state.counts = true
  · simp [h]
  · rw [if_neg h, decide_eq_false h, Bool.or_false]

/-! ### The state after the term edges (R83, R93, R94) -/

/-- The states that the term edges move between. -/
def ChannelState.afterTerms (x : ChannelState) (start quench restart : Bool) : ChannelState :=
  let a := if start then if x = .armed then .running else x else x
  let b := if quench then if a = .running then .quenched else a else a
  if restart then if b = .quenched then .running else b else b

theorem Channel.startEdge_state (c : Channel) : c.startEdge.state = if c.state = .armed then .running else c.state := by
  unfold Channel.startEdge
  split
  · rw [Channel.beginRun_eq]
  · rfl

theorem Channel.quenchEdge_state (c : Channel) :
    c.quenchEdge.state = if c.state = .running then .quenched else c.state := by
  unfold Channel.quenchEdge
  split <;> rfl

theorem Channel.restartEdge_state (c : Channel) :
    c.restartEdge.state = if c.state = .quenched then .running else c.state := by
  unfold Channel.restartEdge
  split
  · rw [Channel.returnToRunning_eq]
  · rfl

theorem Channel.moves_state (c : Channel) (start quench restart : Bool) :
    (c.moves start quench restart).state = c.state.afterTerms start quench restart := by
  simp only [Channel.moves, ChannelState.afterTerms, apply_ite Channel.state, Channel.startEdge_state,
    Channel.quenchEdge_state, Channel.restartEdge_state]

/-! ### The evaluation as fields (R53, R75, R86, R97) -/

/-- An evaluation that changes no stall setting. -/
theorem Channel.evaluate_eq (c : Channel) (f : FrontEnd) : c.evaluate f c.active.stall = { c with
    heldStart := f.termValue c.active.startTerm
    heldRestart := f.termValue c.active.restartTerm
    heldQuench := f.termValue c.active.quenchTerm
    heldResync := f.termValue c.active.resyncTerm
    gateOpen := f.gateLevel c.active.gate
    stallLeft :=
      if c.state ≠ .running then c.stallLeft
      else if f.gateLevel c.active.gate = false ∨ c.active.stall = 0#8 then none
      else if c.gateOpen = false then some (c.active.stall.toNat * tenMilliseconds)
      else c.stallLeft } := by
  unfold Channel.evaluate Channel.fullStall
  by_cases hrun : c.state = .running
  · by_cases hstop : f.gateLevel c.active.gate = false ∨ c.active.stall = 0#8
    · simp [hrun, hstop]
    · obtain ⟨hgate, hstall⟩ := not_or.mp hstop
      simp [hrun, hgate, hstall]
  · simp [hrun]

/-! ### What an edge does to the state -/

/-- From s to t nothing has changed but channel k, which is d now, and lines, pairs and notices. -/
structure State.Edge (k : Fin 6) (s t : State) (d : Channel) : Prop where
  fields : t = { s with port := t.port, out := t.out, channels := t.channels, matrix := t.matrix }
  notifies : s.onlyNotifies t
  others : ∀ i : Fin 6, i ≠ k → t.chan i = s.chan i
  becomes : t.chan k = d

theorem State.Edge.refl (k : Fin 6) (s : State) : s.Edge k s (s.chan k) := ⟨rfl, s.onlyNotifies_refl, fun _ _ => rfl, rfl⟩

theorem State.Edge.trans {d e : Channel} (h : s.Edge k t d) (h' : t.Edge k u e) : s.Edge k u e where
  fields := by rw [h'.fields, h.fields]
  notifies := State.onlyNotifies_trans h.notifies h'.notifies
  others i hi := (h'.others i hi).trans (h.others i hi)
  becomes := h'.becomes

theorem State.Edge.ite {p : Prop} [Decidable p] {d : Channel} (h : p → s.Edge k t d) :
    s.Edge k (if p then t else s) (if p then d else s.chan k) := by
  split
  · next hp => exact h hp
  · exact .refl k s

theorem State.Edge.modChan (s : State) (k : Fin 6) (f : Channel → Channel) : s.Edge k (s.modChan k f) (f (s.chan k)) :=
  ⟨rfl, State.onlyNotifies_of_eq rfl rfl rfl, fun _ hi => s.chan_modChan_other hi f, s.chan_modChan_same k f⟩

/-- A frame of an act on channel k that keeps the inputs, the permit and the ledger. -/
theorem State.RunFrame.edge (h : s.RunFrame k t) (hinputs : t.inputs = s.inputs) (htrip : t.trip = s.trip)
    (hledger : t.ledger = s.ledger) : s.Edge k t (t.chan k) :=
  ⟨by have fields := h.fields; rwa [hinputs, htrip, hledger] at fields, h.notifies, h.others, rfl⟩

theorem State.Edge.offer (s : State) (k : Fin 6) (n : Notice) : s.Edge k (s.offer n) (s.chan k) :=
  ⟨by rw [s.offer_channels n, s.offer_matrix n]; exact (s.offer_cases n).1,
    (s.offer_cases n).2.1, fun i _ => s.offer_chan n i, s.offer_chan n k⟩

theorem State.Edge.reportState (s : State) (k : Fin 6) (old : ChannelState) (cause : Nat) :
    s.Edge k (s.reportState k old cause) (s.chan k) := by
  have stamped : s.Edge k s.nextOrdinal (s.chan k) := ⟨rfl, State.onlyNotifies_of_eq rfl rfl rfl, fun _ _ => rfl, rfl⟩
  unfold State.reportState State.offerIf
  split
  · exact stamped.trans (.offer _ k _)
  · exact stamped

theorem State.Edge.startEdge (s : State) (k : Fin 6) : s.Edge k (s.startEdge k) (s.chan k).startEdge := by
  refine .ite fun _ => ?_
  have acted := State.Edge.modChan s k Channel.beginRun
  have told := State.Edge.reportState (s.modChan k Channel.beginRun) k .armed 1
  rw [acted.becomes] at told
  exact acted.trans told

theorem State.Edge.quenchEdge (s : State) (k : Fin 6) : s.Edge k (s.quenchEdge k) (s.chan k).quenchEdge := by
  refine .ite fun _ => ?_
  obtain ⟨fields, acted, others, -⟩ := s.enterQuenched_cases k
  have entered : s.Edge k (s.enterQuenched k) (s.chan k).quenched :=
    ⟨by rw [fields], State.onlyNotifies_of_eq (by rw [fields]) (by rw [fields]) (by rw [fields]),
      fun i hi => others i (by simpa using hi), acted k (beq_self_eq_true k)⟩
  have told := State.Edge.reportState (s.enterQuenched k) k .running 2
  rw [entered.becomes] at told
  exact entered.trans told

theorem State.Edge.restartEdge (s : State) (k : Fin 6) : s.Edge k (s.restartEdge k) (s.chan k).restartEdge := by
  refine .ite fun _ => ?_
  have acted := State.Edge.modChan s k fun c => c.rearmForRestart.enterRunning
  have told := State.Edge.reportState (s.restartChannel k) k .quenched 3
  have becomes : (s.restartChannel k).chan k = (s.chan k).rearmForRestart.enterRunning := acted.becomes
  rw [becomes] at told
  exact State.Edge.trans acted told

theorem State.Edge.resyncEdge (s : State) (k : Fin 6) : s.Edge k (s.resyncEdge k) (s.chan k).resyncEdge :=
  .ite fun _ => .modChan s k _

theorem State.Edge.captureEdge (s : State) (k : Fin 6) :
    s.Edge k (s.captureEdge k) ((s.chan k).captureEdge s.out.ordinal) := by
  refine .ite fun _ => ?_
  obtain ⟨frame, becomes, -, htrip, hledger, -⟩ := s.captureAttempt_cases k 0#4 (s.chan k).sourceValue
  have hinputs : (s.captureAttempt k 0#4 (s.chan k).sourceValue).inputs = s.inputs := by
    unfold State.captureAttempt
    exact State.offer_inputs _ _
  have edge := frame.edge hinputs htrip hledger
  rw [becomes] at edge
  exact edge

/-! ### The evaluation of one channel (R52, R95, R166) -/

/-- The channel, settled as d, after the edges and the capture source of an evaluation while it is not frozen. -/
def Channel.evaluated (before after : FrontEnd) (ordinal : BitVec 16) (c d : Channel) : Channel :=
  let e := d.termEdges
    (after.termValue c.active.startTerm && !c.heldStart) (after.termValue c.active.quenchTerm && !c.heldQuench)
    (after.termValue c.active.restartTerm && !c.heldRestart) (after.termValue c.active.resyncTerm && !c.heldResync)
  if captureEvent before after c.active.captureSource then e.captureEdge ordinal else e

/-- An edge taken on a condition, behind what has happened to the channel so far. -/
theorem State.Edge.when {act : State → State} {f : Channel → Channel} {d : Channel}
    (hact : ∀ t : State, t.Edge k (act t) (f (t.chan k))) (b : Bool) (h : s.Edge k t d) :
    s.Edge k (State.when b act t) (if b then f d else d) := by
  have taken : t.Edge k (State.when b act t) (if b then f (t.chan k) else t.chan k) := .ite fun _ => hact t
  rw [h.becomes] at taken
  exact h.trans taken

theorem State.Edge.capture {d : Channel} (b : Bool) (h : s.Edge k t d) :
    s.Edge k (State.when b (·.captureEdge k) t) (if b then d.captureEdge t.out.ordinal else d) := by
  have taken : t.Edge k (State.when b (·.captureEdge k) t) (if b then (t.chan k).captureEdge t.out.ordinal else t.chan k) :=
    .ite fun _ => .captureEdge t k
  rw [h.becomes] at taken
  exact h.trans taken

/-- The evaluation of channel k: a frozen channel is settled alone, any other takes its edges (R95, R166). -/
theorem State.Edge.evaluateChannel (before : FrontEnd) (s : State) (k : Fin 6) :
    ∃ ordinal, s.Edge k (State.evaluateChannel before s k)
      (let d := (s.chan k).evaluate s.inputs (s.chan k).active.stall
       if s.frozen k then d else Channel.evaluated before s.inputs ordinal (s.chan k) d) := by
  have settled := State.Edge.modChan s k fun c => c.evaluate s.inputs (s.chan k).active.stall
  have frozen : (s.modChan k fun c => c.evaluate s.inputs (s.chan k).active.stall).frozen k = s.frozen k := by
    unfold State.frozen
    rw [settled.becomes, Channel.evaluate_eq]; rfl
  unfold State.evaluateChannel
  simp only [frozen]
  split
  · exact ⟨0, settled⟩
  · exact ⟨_, .capture _ (.when (.resyncEdge · k) _ (.when (.restartEdge · k) _ (.when (.quenchEdge · k) _
      (.when (.startEdge · k) _ settled))))⟩

end Sys2Proof.Machine
end

section
/-! The acceptance of DIN levels: every channel evaluated in order (R32, R38, R48, R49, R52, R95, R166). -/

namespace Sys2Proof.Machine

variable {s t : State} {k : Fin 6}

/-! ### What an evaluation keeps -/

theorem Channel.moves_kept (d : Channel) (start quench restart : Bool) :
    (d.moves start quench restart) = { d with
      state := d.state.afterTerms start quench restart, stallLeft := (d.moves start quench restart).stallLeft
      windowLeft := (d.moves start quench restart).windowLeft, arming := (d.moves start quench restart).arming } := by
  rw [← Channel.moves_state]
  exact d.moves_same start quench restart

/-- The channel after the four term edges. -/
theorem Channel.termEdges_eq (d : Channel) (start quench restart resync : Bool) : d.termEdges start quench restart resync =
    { d.moves start quench restart with
      resyncPending := d.resyncPending || (resync && decide (d.active.mode = .loop ∧
        (d.state.afterTerms start quench restart).counts = true)) } := by
  have pending : (d.moves start quench restart).resyncPending = d.resyncPending := by rw [d.moves_kept]
  have mode : (d.moves start quench restart).active = d.active := by rw [d.moves_kept]
  unfold Channel.termEdges
  cases resync
  · rw [Bool.false_and, Bool.or_false, ← pending]; rfl
  · rw [if_pos rfl, Channel.resyncEdge_eq, pending, Bool.true_and, ← mode, ← Channel.moves_state]

/-- A capture source of a channel that counts appends a record or, with four held, counts an overcapture. -/
theorem Channel.captureEdge_cases (e : Channel) (ordinal : BitVec 16) :
    e.captureEdge ordinal = { e with
        captures := (e.captureEdge ordinal).captures, overcapture := (e.captureEdge ordinal).overcapture }
      ∧ (e.state.counts = false → e.captureEdge ordinal = e)
      ∧ (e.state.counts = true → e.captures.length < 4 → (e.captureEdge ordinal).captures =
          e.captures ++ [⟨e.sourceValue, e.captureIndex, 0#4, ordinal⟩])
      ∧ (e.state.counts = true → 4 ≤ e.captures.length → (e.captureEdge ordinal).captures = e.captures
          ∧ (e.captureEdge ordinal).overcapture = saturatingAdd e.overcapture 1) := by
  unfold Channel.captureEdge Channel.takeRecord fifoSlots
  refine ⟨?_, fun h => ?_, fun h hroom => ?_, fun h hfull => ?_⟩
  · by_cases hcounts : e.state.counts = true
    · rw [if_pos hcounts]; split <;> rfl
    · rw [if_neg hcounts]
  · rw [if_neg (by simp [h])]
  · rw [if_pos h, if_pos hroom]
  · rw [if_pos h, if_neg (by exact Nat.not_lt.mpr hfull)]
    exact ⟨rfl, rfl⟩

/-! ### States moved by the terms (R83, R93, R94, R95) -/

theorem ChannelState.afterTerms_armed (start restart : Bool) :
    ChannelState.armed.afterTerms start false restart = if start then .running else .armed := by
  cases start <;> cases restart <;> rfl

theorem ChannelState.afterTerms_running (start quench : Bool) :
    ChannelState.running.afterTerms start quench false = if quench then .quenched else .running := by
  cases start <;> cases quench <;> rfl

theorem ChannelState.afterTerms_quenched (start quench restart : Bool) :
    ChannelState.quenched.afterTerms start quench restart = if restart then .running else .quenched := by
  cases start <;> cases quench <;> cases restart <;> rfl

theorem ChannelState.afterTerms_of_not_live {x : ChannelState} (h : x.live = false) (start quench restart : Bool) :
    x.afterTerms start quench restart = x := by
  have harmed : x ≠ .armed := by rintro rfl; cases h
  have hrunning : x ≠ .running := by rintro rfl; cases h
  have hquenched : x ≠ .quenched := by rintro rfl; cases h
  simp [ChannelState.afterTerms, harmed, hrunning, hquenched]

/-! ### All channels in order (R32) -/

/-- Channel c after its evaluation: settled and, unless it is frozen, past its edges. -/
def Channel.afterEvaluation (before after : FrontEnd) (frozen : Bool) (ordinal : BitVec 16) (c : Channel) : Channel :=
  let d := c.evaluate after c.active.stall
  if frozen then d else Channel.evaluated before after ordinal c d

/-- From s to t the named channels have been evaluated, and nothing else has changed but lines, pairs and notices. -/
structure State.Evaluates (before : FrontEnd) (s t : State) (named : Fin 6 → Bool) : Prop where
  fields : t = { s with port := t.port, out := t.out, channels := t.channels, matrix := t.matrix }
  notifies : s.onlyNotifies t
  others : ∀ k : Fin 6, named k = false → t.chan k = s.chan k
  acted : ∀ k : Fin 6, named k = true →
    ∃ ordinal, t.chan k = (s.chan k).afterEvaluation before s.inputs (s.frozen k) ordinal

theorem State.Evaluates.evaluateChannel {before : FrontEnd} {named : Fin 6 → Bool} (h : s.Evaluates before t named)
    (hk : named k = false) :
    s.Evaluates before (State.evaluateChannel before t k) fun i => named i || i == k := by
  obtain ⟨ordinal, fields, notifies, others, becomes⟩ := State.Edge.evaluateChannel before t k
  have hinputs : t.inputs = s.inputs := by rw [h.fields]
  have hchan : t.chan k = s.chan k := h.others k hk
  have hfrozen : t.frozen k = s.frozen k := by
    have htrip : t.trip = s.trip := by rw [h.fields]
    rw [State.frozen, State.frozen, htrip, hchan]
  refine ⟨by rw [fields, h.fields], State.onlyNotifies_trans h.notifies notifies, fun i hi => ?_, fun i hi => ?_⟩
  · obtain ⟨hi, hik⟩ := Bool.or_eq_false_iff.mp hi
    rw [others i (by simpa using hik), h.others i hi]
  · by_cases hik : i = k
    · rw [hik, becomes, hinputs, hchan, hfrozen]
      exact ⟨ordinal, rfl⟩
    · rw [others i hik]
      exact h.acted i (by simpa [hik] using hi)

theorem State.evaluates_channels (before : FrontEnd) (s : State) :
    s.Evaluates before (channelNumbers.foldl (State.evaluateChannel before) s) fun _ => true := by
  have start : s.Evaluates before s fun _ => false := ⟨rfl, s.onlyNotifies_refl, fun _ _ => rfl, by simp⟩
  have all := State.foldl_channels (effect := State.Evaluates before s)
    (fun t named k h hk => State.Evaluates.evaluateChannel h hk) channelNumbers s (fun _ => false) start
    (by decide) fun _ _ => rfl
  have named : (fun i : Fin 6 => false || decide (i ∈ channelNumbers)) = fun _ => true := by
    funext i; fin_cases i <;> rfl
  rwa [named] at all

/-! ### What the evaluation of a channel that is not frozen has done -/

/-- The rises of the terms of channel c in an evaluation on the front end f, and its capture-source event. -/
structure Channel.Edges where
  start : Bool
  quench : Bool
  restart : Bool
  resync : Bool
  captures : Bool

def Channel.edges (before after : FrontEnd) (c : Channel) : Channel.Edges where
  start := !c.heldStart && after.termValue c.active.startTerm
  quench := !c.heldQuench && after.termValue c.active.quenchTerm
  restart := !c.heldRestart && after.termValue c.active.restartTerm
  resync := !c.heldResync && after.termValue c.active.resyncTerm
  captures := captureEvent before after c.active.captureSource

theorem Channel.evaluated_eq (before after : FrontEnd) (ordinal : BitVec 16) (c d : Channel) :
    Channel.evaluated before after ordinal c d =
      let x := c.edges before after
      if x.captures then (d.termEdges x.start x.quench x.restart x.resync).captureEdge ordinal
      else d.termEdges x.start x.quench x.restart x.resync := by
  simp only [Channel.evaluated, Channel.edges, Bool.and_comm]
  rfl

/-- The fields of a channel that no evaluation changes. -/
def Channel.SameSetting (c e : Channel) : Prop :=
  e.staged = c.staged ∧ e.active = c.active ∧ e.value = c.value ∧ e.cycleIndex = c.cycleIndex ∧ e.accumulator = c.accumulator

/-- The held values and the gate of a channel are those of a front end. -/
def Channel.Holds (f : FrontEnd) (c : Channel) : Prop :=
  c.heldStart = f.termValue c.active.startTerm ∧ c.heldRestart = f.termValue c.active.restartTerm
    ∧ c.heldQuench = f.termValue c.active.quenchTerm ∧ c.heldResync = f.termValue c.active.resyncTerm
    ∧ c.gateOpen = f.gateLevel c.active.gate

theorem Channel.afterEvaluation_frozen (before after : FrontEnd) (ordinal : BitVec 16) (c : Channel) :
    let e := c.afterEvaluation before after true ordinal
    c.SameSetting e ∧ e.Holds after ∧ e.state = c.state ∧ e.captures = c.captures ∧ e.overcapture = c.overcapture
      ∧ e.resyncPending = c.resyncPending := by
  intro e
  have settled : e = c.evaluate after c.active.stall := rfl
  rw [settled, Channel.evaluate_eq]
  exact ⟨⟨rfl, rfl, rfl, rfl, rfl⟩, ⟨rfl, rfl, rfl, rfl, rfl⟩, rfl, rfl, rfl, rfl⟩

/-- The channel settled and past its four terms. -/
def Channel.pastTerms (before after : FrontEnd) (c : Channel) : Channel :=
  let x := c.edges before after
  (c.evaluate after c.active.stall).termEdges x.start x.quench x.restart x.resync

theorem Channel.pastTerms_cases (before after : FrontEnd) (c : Channel) :
    let e := c.pastTerms before after
    let x := c.edges before after
    c.SameSetting e ∧ e.Holds after ∧ e.state = c.state.afterTerms x.start x.quench x.restart
      ∧ e.resyncPending = (c.resyncPending || (x.resync && decide (c.active.mode = .loop ∧ e.state.counts = true)))
      ∧ e.captures = c.captures ∧ e.overcapture = c.overcapture ∧ e.windowCount = c.windowCount := by
  intro e x
  have terms : e = _ := (c.evaluate after c.active.stall).termEdges_eq x.start x.quench x.restart x.resync
  rw [Channel.moves_kept, Channel.evaluate_eq] at terms
  have state : e.state = c.state.afterTerms x.start x.quench x.restart := by rw [terms]
  rw [state]
  generalize c.state.afterTerms x.start x.quench x.restart = y at terms state
  rw [terms]
  exact ⟨⟨rfl, rfl, rfl, rfl, rfl⟩, ⟨rfl, rfl, rfl, rfl, rfl⟩, rfl, rfl, rfl, rfl, rfl⟩

theorem Channel.afterEvaluation_live (before after : FrontEnd) (ordinal : BitVec 16) (c : Channel) :
    let e := c.afterEvaluation before after false ordinal
    let x := c.edges before after
    c.SameSetting e ∧ e.Holds after ∧ e.state = c.state.afterTerms x.start x.quench x.restart
      ∧ e.resyncPending = (c.resyncPending || (x.resync && decide (c.active.mode = .loop ∧ e.state.counts = true)))
      ∧ (x.captures = false ∨ e.state.counts = false → e.captures = c.captures ∧ e.overcapture = c.overcapture)
      ∧ (x.captures = true → e.state.counts = true → c.captures.length < 4 →
          e.captures = c.captures ++ [⟨c.sourceValue, c.captureIndex, 0#4, ordinal⟩])
      ∧ (x.captures = true → e.state.counts = true → 4 ≤ c.captures.length →
          e.captures = c.captures ∧ e.overcapture = saturatingAdd c.overcapture 1) := by
  intro e x
  obtain ⟨hsame, hholds, hstate, hresync, hcaptures, hover, hwindow⟩ := c.pastTerms_cases before after
  have he : e = if x.captures then (c.pastTerms before after).captureEdge ordinal else c.pastTerms before after :=
    Channel.evaluated_eq before after ordinal c _
  generalize c.pastTerms before after = d at *
  obtain ⟨hkept, hidle, hroom, hfull⟩ := d.captureEdge_cases ordinal
  have hrecord : (⟨d.sourceValue, d.captureIndex, 0#4, ordinal⟩ : CaptureRecord) =
      ⟨c.sourceValue, c.captureIndex, 0#4, ordinal⟩ := by
    obtain ⟨-, hactive, hvalue, hcycle, haccumulator⟩ := hsame
    simp only [Channel.sourceValue, Channel.captureIndex, hactive, hvalue, hcycle, haccumulator, hwindow]
  cases hx : x.captures with
  | false =>
    rw [hx, if_neg Bool.false_ne_true] at he
    rw [he]
    exact ⟨hsame, hholds, hstate, hresync, fun _ => ⟨hcaptures, hover⟩, by simp, by simp⟩
  | true =>
    rw [hx, if_pos rfl] at he
    have hcounts : e.state = d.state := by rw [he, hkept]
    rw [hcounts]
    refine ⟨?_, ?_, hstate, ?_, fun h => ?_, fun _ h hlt => ?_, fun _ h hle => ?_⟩
    · rw [he, hkept]; exact hsame
    · rw [he, hkept]; exact hholds
    · rw [he, hkept]; exact hresync
    · rw [he, hidle (by simpa using h)]; exact ⟨hcaptures, hover⟩
    · rw [he, hroom h (by rw [hcaptures]; exact hlt), hcaptures, hrecord]
    · obtain ⟨hc, ho⟩ := hfull h (by rw [hcaptures]; exact hle)
      rw [he, hc, ho, hcaptures, hover]; exact ⟨rfl, rfl⟩

end Sys2Proof.Machine
end

section
/-! The DIN acceptance and the edges as the statement gives them (R32, R38, R48, R49, R52, R104). -/

namespace Sys2Proof.Machine

variable {s t : State} {k : Fin 6}

/-! ### The DIN candidates that are due (R38, R48) -/

theorem FilteredInput.due_iff (i : FilteredInput) (time : Nat) : i.due time = true ↔ i.heldFor time := by
  unfold FilteredInput.due FilteredInput.heldFor
  cases i.held <;> simp

theorem State.dinDue_iff (s : State) (n : Fin 8) :
    s.dinDue n = true ↔ (s.dinPin n).input.heldFor (dinFilterTime (s.dinPin n).code) := FilteredInput.due_iff _ _

theorem State.acceptDins_din (s : State) (pins : BitVec 8) (n : Fin 8) : (s.acceptDins pins).din[n] =
    if pins.getLsbD n.val && s.dinDue n then ⟨(s.dinPin n).input.flipped, (s.dinPin n).code, (s.dinPin n).invert⟩
    else s.dinPin n := tabulate8_getElem _ n

/-- With a named DIN due, the levels change together and every channel is evaluated. -/
theorem exec_dinFilterAccept {pins : BitVec 8} {n : Fin 8} (hn : pins.getLsbD n.val = true) (hdue : s.dinDue n = true) :
    exec (.dinFilterAccept pins) s =
      .next (channelNumbers.foldl (State.evaluateChannel s.inputs) (s.withInputs (s.acceptDins pins))) := by
  have hany : (dinNumbers.any fun n => pins.getLsbD n.val && s.dinDue n) = true :=
    List.any_eq_true.mpr ⟨n, by fin_cases n <;> decide, by simp [hn, hdue]⟩
  show execDinFilterAccept pins s = _
  rw [execDinFilterAccept, if_pos hany]

/-! ### What is counted, and capture events, as conditions -/

theorem ChannelState.counts_iff (x : ChannelState) : x.counts = true ↔ x = .running ∨ x = .quenched := by
  cases x <;> simp [ChannelState.counts]

theorem captureEvent_eq (before after : FrontEnd) (source : Option CaptureSource) : captureEvent before after source =
    match source with
    | none => false
    | some x => match x.edge with
      | .rise => !(before.dinLevel x.din) && after.dinLevel x.din
      | .fall => before.dinLevel x.din && !(after.dinLevel x.din)
      | .both => before.dinLevel x.din ^^ after.dinLevel x.din := by
  cases source with
  | none => rfl
  | some x => unfold captureEvent; cases x.edge <;> rfl

theorem State.frozen_iff (s : State) (k : Fin 6) : s.frozen k = true ↔
    s.trip.permit = .tripped ∧ s.trip.config.policy = .freeze ∧ (s.chan k).state.live = true := by
  simp [State.frozen, and_assoc]

theorem State.enterQuenched_fields (s : State) (k : Fin 6) : s.enterQuenched k =
    { s.setChan k (s.chan k).quenched with matrix := (s.enterQuenched k).matrix } := by
  have hreleases := (s.releaseLines_cases k).1
  unfold State.enterQuenched
  generalize s.releaseLines k = t at *
  rw [hreleases]
  rfl

/-- State t once a change of state of channel k, of settings and value c, has been reported (R104). -/
def State.told (t : State) (k : Fin 6) (c : Channel) (old new : BitVec 4) (cause : BitVec 3) : State :=
  if c.active.notifyState then
    t.nextOrdinal.offer ⟨.state, channelField k, [0#5 ++ cause ++ old ++ new ++ t.out.ordinal, c.value]⟩
  else t.nextOrdinal

/-- The report of a change of state in which channel c keeps its settings and its value. -/
theorem State.reportState_told {c d : Channel} {new old : ChannelState} {cause : Nat} (hchan : t.chan k = d)
    (hstate : d.state = new) (hactive : d.active = c.active) (hvalue : d.value = c.value) (hcause : cause < 8) :
    t.reportState k old cause = t.told k c old.code new.code (BitVec.ofNat 3 cause) := by
  rw [State.reportState_eq (by rw [hchan, hstate]) hcause, hchan, hactive, hvalue, State.told]

theorem State.startEdge_armed (h : (s.chan k).state = .armed) :
    s.startEdge k = (s.setChan k (s.chan k).beginRun).told k (s.chan k) 2#4 3#4 1#3 := by
  rw [State.startEdge, if_pos h]
  exact State.reportState_told (new := .running) (s.chan_setChan_same k _) (by rw [Channel.beginRun_eq])
    (by rw [Channel.beginRun_eq]) (by rw [Channel.beginRun_eq]) (by decide)

theorem State.quenchEdge_running (h : (s.chan k).state = .running) :
    s.quenchEdge k = (s.enterQuenched k).told k (s.chan k) 3#4 4#4 2#3 := by
  rw [State.quenchEdge, if_pos h]
  exact State.reportState_told (new := .quenched) ((s.enterQuenched_cases k).acted k (beq_self_eq_true k)) rfl rfl rfl (by decide)

theorem State.restartEdge_quenched (h : (s.chan k).state = .quenched) :
    s.restartEdge k = (s.setChan k (s.chan k).rearmForRestart.enterRunning).told k (s.chan k) 4#4 3#4 3#3 := by
  rw [State.restartEdge, if_pos h]
  exact State.reportState_told (d := (s.chan k).rearmForRestart.enterRunning) (new := .running)
    (s.chan_setChan_same k _) (by rw [Channel.returnToRunning_eq])
    (by rw [Channel.returnToRunning_eq]) (by rw [Channel.returnToRunning_eq]) (by decide)

/-- Settles O51: the acceptance is the fold of `State.Edge.evaluateChannel` over the channels, whose result on each
channel is `Channel.afterEvaluation`; the evaluation and the edges are the model's own, with their fields written out. -/
theorem termRisesMoveChannels : Obligations.TermRisesMoveChannels := by
  refine ⟨fun s pins ⟨n, hn, hheld⟩ => ?accepted, fun before s k => ?evaluated, fun s k => ?edges⟩
  case accepted =>
    have hrun := State.evaluates_channels s.inputs (s.withInputs (s.acceptDins pins))
    refine ⟨_, exec_dinFilterAccept hn ((s.dinDue_iff n).mpr hheld), ?_⟩
    have hfold : channelNumbers.foldl (State.evaluateChannel s.inputs) (s.withInputs (s.acceptDins pins)) =
      ([0, 1, 2, 3, 4, 5] : List (Fin 6)).foldl (State.evaluateChannel s.inputs) (s.withInputs (s.acceptDins pins)) := rfl
    generalize channelNumbers.foldl (State.evaluateChannel s.inputs) (s.withInputs (s.acceptDins pins)) = t at *
    obtain ⟨hfields, hnotifies, -, hacted⟩ := hrun
    have hinputs : t.inputs = s.acceptDins pins := by rw [hfields]; rfl
    have hdin : ∀ n : Fin 8, t.dinPin n = (s.acceptDins pins).din[n] := fun n => by rw [State.dinPin, hinputs]
    refine ⟨by rw [hinputs]; rfl, hnotifies, by rw [hinputs]; exact hfold, by rw [hinputs]; rfl, ?_, fun n hn hheld => ?_,
      fun n hn => ?_, fun k => ?_⟩
    · rw [hinputs]; exact hfields
    · rw [hdin, s.acceptDins_din, hn, (s.dinDue_iff n).mpr hheld]; rfl
    · rw [hdin, s.acceptDins_din]
      refine if_neg fun hdue => ?_
      obtain ⟨hnamed, hdue⟩ := Bool.and_eq_true_iff.mp hdue
      rcases hn with h | h
      · exact Bool.false_ne_true (h.symm.trans hnamed)
      · exact h ((s.dinDue_iff n).mp hdue)
    · intro c start quench restart resync before after captures counts
      obtain ⟨ordinal, hk⟩ := hacted k rfl
      have hk : t.chan k = c.afterEvaluation s.inputs t.inputs (s.frozen k) ordinal := by rw [hk, hinputs]; rfl
      have hcaptures : captureEvent s.inputs t.inputs c.active.captureSource = captures :=
        captureEvent_eq s.inputs t.inputs c.active.captureSource
      cases hfrozen : s.frozen k with
      | true =>
        obtain ⟨⟨hstaged, hactive, hvalue, hcycle, haccumulator⟩, hholds, hstate, hfifo, hover, hresync⟩ :=
          c.afterEvaluation_frozen s.inputs t.inputs ordinal
        rw [hfrozen] at hk
        rw [← hk] at hstaged hactive hvalue hcycle haccumulator hholds hstate hfifo hover hresync
        exact ⟨hholds, hvalue, hactive, hstaged, hcycle, haccumulator, fun _ => ⟨hstate, hfifo, hover, hresync⟩, by simp⟩
      | false =>
        obtain ⟨⟨hstaged, hactive, hvalue, hcycle, haccumulator⟩, hholds, hstate, hresync, hidle, hroom, hfull⟩ :=
          c.afterEvaluation_live s.inputs t.inputs ordinal
        rw [hfrozen] at hk
        rw [← hk] at hstaged hactive hvalue hcycle haccumulator hholds hstate hresync hidle hroom hfull
        have hcounts : (t.chan k).state.counts = true ↔ counts := ChannelState.counts_iff _
        have hstate : (t.chan k).state = c.state.afterTerms start quench restart := hstate
        refine ⟨hholds, hvalue, hactive, hstaged, hcycle, haccumulator, by simp, fun _ =>
          ⟨fun h hq => ?_, fun h hs hq hr => ?_, fun h hr => ?_, fun h => ?_, fun h => ?_, ?_, fun h => ?_,
            fun hc h hlt => ⟨_, hroom (hcaptures.trans hc) (hcounts.mpr h) hlt, rfl, rfl, rfl⟩,
            fun hc h hle => hfull (hcaptures.trans hc) (hcounts.mpr h) hle⟩⟩
        · rw [hstate, h, hq, ChannelState.afterTerms_armed]
        · rw [hstate, h, hs, hq, hr]; rfl
        · rw [hstate, h, hr, ChannelState.afterTerms_running]
        · rw [hstate, h, ChannelState.afterTerms_quenched]
        · rw [hstate, ChannelState.afterTerms_of_not_live h]
        · rw [hresync, decide_eq_decide.mpr (and_congr_right fun _ => hcounts)]; rfl
        · exact hidle (h.imp hcaptures.trans fun hn => by simpa using mt hcounts.mp hn)
  case evaluated =>
    intro c gate full level rises captures u started quenched restarted resynced
    have hcaptures : captureEvent before s.inputs c.active.captureSource = captures :=
      captureEvent_eq before s.inputs c.active.captureSource
    have hu : (s.modChan k fun c => c.evaluate s.inputs (s.chan k).active.stall) = u :=
      congrArg (s.setChan k) (c.evaluate_eq s.inputs)
    have hfrozen : u.frozen k = true ↔ s.trip.permit = .tripped ∧ s.trip.config.policy = .freeze ∧ c.state.live = true := by
      have hstate : (u.chan k).state = c.state := by rw [← hu, State.chan_modChan_same, Channel.evaluate_eq]
      rw [u.frozen_iff k, hstate]
    have hrises : ∀ (held : Bool) (x : Term), (s.inputs.termValue x && !held) = rises held x := fun held x => Bool.and_comm _ _
    simp only [State.evaluateChannel, State.when]
    rw [hu, hrises, hrises, hrises, hrises, hcaptures]
    by_cases h : s.trip.permit = .tripped ∧ s.trip.config.policy = .freeze ∧ c.state.live = true
    · rw [if_pos h, if_pos (hfrozen.mpr h)]
    · rw [if_neg h, if_neg (mt hfrozen.mp h)]
  case edges =>
    intro c told becomes
    refine ⟨fun h => ?_, fun h => if_neg h, fun h => ?_, fun h => if_neg h, fun h => ?_, fun h => if_neg h, ?_, ?_⟩
    · rw [State.startEdge_armed h, Channel.beginRun_eq]; rfl
    · exact ⟨s.enterQuenched k, State.quenchEdge_running h, s.enterQuenched_fields k, (s.enterQuenched_cases k).releases⟩
    · rw [State.restartEdge_quenched h, Channel.returnToRunning_eq]; rfl
    · exact if_congr (and_congr_right fun _ => ChannelState.counts_iff c.state) rfl rfl
    · exact if_congr (ChannelState.counts_iff c.state) rfl rfl

end Sys2Proof.Machine
end

section
/-! The Command Engine's step on the front of the CIQ, and the time to the next instant (R20, R23, R32, R38, R48, R97,
R133). -/

namespace Sys2Proof.Machine

variable {s t : State} {m : Message} {rest : List Message}

/-! ### The row of a message's kind (R20, R21) -/

theorem commandRow_of_unassigned {kind : Byte} (h : kind ∉ assignedKinds) : commandRow kind = .unknownKind := by
  unfold commandRow
  split
  case h_36 => rfl
  all_goals
    next hk =>
      have same : kind = BitVec.ofNat 8 kind.toNat := BitVec.eq_of_toNat_eq (by simp)
      rw [hk] at same
      exact absurd (by rw [same]; decide) h

theorem commandRow_of_assigned {kind : Byte} (h : kind ∈ assignedKinds) :
    ∃ p ∈ commandForms, p.1 = commandRow kind ∧ p.2.kind = kind := by
  have table : ∀ kind ∈ assignedKinds, ∃ p ∈ commandForms, p.1 = commandRow kind ∧ p.2.kind = kind := by decide
  exact table kind h

/-- The Command Engine answers the message at the front of the CIQ, whatever its kind. -/
theorem exec_commandRow (h : s.takes m rest) : ∃ (t : State) (r : Reply), exec (commandRow (headKind m.head)) s = .next (t.admitReply m r)
    ∧ t.pending = s.pending ∧ (t.port.ciq = rest ∨ t.port.ciq = []) := by
  by_cases hkind : headKind m.head ∈ assignedKinds
  · obtain ⟨p, hp, hrow, hk⟩ := commandRow_of_assigned hkind
    obtain ⟨body, hc⟩ := engineCommand_of_form hp
    rw [← hrow, exec_engineCommand hc, State.command_of_takes h hk.symm, State.execute]
    split
    · exact ⟨_, _, rfl, rfl, .inl rfl⟩
    · obtain ⟨hpending, hciq⟩ := engineCommand_waiting hc m (s.takeMessage rest)
      exact ⟨_, _, rfl, hpending, hciq⟩
  · rw [commandRow_of_unassigned hkind]
    refine ⟨s.takeMessage rest, .refuse .unknownKind, ?_, rfl, .inl rfl⟩
    show execUnknownKind s = _
    rw [execUnknownKind, State.nextMessage_of_takes h]
    exact congrArg _ (if_neg hkind)

/-! ### The least of several times -/

theorem sooner_eq_some {a b : Option Nat} {d : Nat} (h : sooner a b = some d) : a = some d ∨ b = some d := by
  cases a with
  | none => exact .inr h
  | some x =>
    cases b with
    | none => exact .inl h
    | some y =>
      have hd : min x y = d := Option.some.inj h
      rcases min_choice x y with hx | hy
      · exact .inl (congrArg some (hx.symm.trans hd))
      · exact .inr (congrArg some (hy.symm.trans hd))

theorem sooner_le {a b : Option Nat} {x : Nat} (h : a = some x ∨ b = some x) : ∃ z ≤ x, sooner a b = some z := by
  rcases h with rfl | rfl
  · cases b with
    | none => exact ⟨x, le_rfl, rfl⟩
    | some y => exact ⟨min x y, min_le_left x y, rfl⟩
  · cases a with
    | none => exact ⟨x, le_rfl, rfl⟩
    | some y => exact ⟨min y x, min_le_right y x, rfl⟩

theorem mem_of_foldl_sooner {l : List (Option Nat)} {d : Nat} : ∀ {a : Option Nat},
    l.foldl sooner a = some d → a = some d ∨ some d ∈ l := by
  induction l with
  | nil => exact fun h => .inl h
  | cons y l ih =>
    intro a h
    rcases ih h with h | h
    · exact (sooner_eq_some h).imp_right fun hy : y = some d => hy ▸ List.mem_cons_self
    · exact .inr (List.mem_cons_of_mem y h)

theorem foldl_sooner_le {l : List (Option Nat)} : ∀ {a : Option Nat} {x : Nat},
    a = some x ∨ some x ∈ l → ∃ z ≤ x, l.foldl sooner a = some z := by
  induction l with
  | nil => exact fun {a x} h => ⟨x, le_rfl, h.resolve_right List.not_mem_nil⟩
  | cons y l ih =>
    intro a x h
    have hcases : (a = some x ∨ y = some x) ∨ some x ∈ l := by
      rw [List.mem_cons, eq_comm (a := some x)] at h
      exact or_assoc.mpr h
    rcases hcases with h | h
    · obtain ⟨z, hz, hs⟩ := sooner_le h
      obtain ⟨w, hw, hfold⟩ := ih (.inl hs)
      exact ⟨w, hw.trans hz, hfold⟩
    · exact ih (.inr h)

/-- The soonest is the least of the times, if there is one. -/
theorem soonest_eq_some {l : List (Option Nat)} {d : Nat} :
    soonest l = some d ↔ some d ∈ l ∧ ∀ x, some x ∈ l → d ≤ x := by
  constructor
  · intro h
    refine ⟨(mem_of_foldl_sooner h).resolve_left (Option.some_ne_none _).symm, fun x hx => ?_⟩
    obtain ⟨z, hz, hfold⟩ := foldl_sooner_le (.inr hx)
    exact Option.some.inj (h.symm.trans hfold) ▸ hz
  · rintro ⟨hd, hleast⟩
    obtain ⟨z, hz, hfold⟩ := foldl_sooner_le (.inr hd)
    have hmem := (mem_of_foldl_sooner hfold).resolve_left (Option.some_ne_none _).symm
    rw [le_antisymm (hleast z hmem) hz]
    exact hfold

theorem soonest_eq_none_iff {l : List (Option Nat)} : soonest l = none ↔ ∀ x, some x ∉ l := by
  constructor
  · intro h x hx
    obtain ⟨z, -, hfold⟩ := foldl_sooner_le (.inr hx)
    exact Option.some_ne_none z (hfold.symm.trans h)
  · intro h
    exact soonest_eq_none fun x hx => Option.eq_none_iff_forall_ne_some.mpr fun y hy => h y (hy ▸ hx)

/-! ### What the part waits for (R38, R48, R97, R133, R148, R161) -/

/-- The time x is one that something of the part still has to wait. -/
def State.waits (s : State) (x : Nat) : Prop :=
  (∃ p h, (s.countPin p).held = some h ∧ x = countFilterTime (s.countFilterOf p) - h)
  ∨ (∃ n h, (s.dinPin n).input.held = some h ∧ x = dinFilterTime (s.dinPin n).code - h)
  ∨ (∃ i : SafetyInput, (i = s.safety.tripIn ∨ (∃ b : Fin 3, i = s.safety.ovl[b]) ∨ i = s.safety.supplyOk)
      ∧ (i.owed = true ∧ x = 0 ∨ i.owed = false ∧ ∃ h, i.input.held = some h ∧ x = 4 - h))
  ∨ s.trip.watchLeft = some x ∨ (∃ n, (s.line n).pulseLeft = some x) ∨ (∃ j, (s.pair j).gapLeft = some x)
  ∨ ∃ k, s.frozen k = false ∧ ((s.chan k).stallLeft = some x ∨ ∃ l, (s.chan k).windowLeft = some ⟨x, l⟩)

theorem FilteredInput.left_eq_some (i : FilteredInput) (time x : Nat) :
    i.left time = some x ↔ ∃ h, i.held = some h ∧ x = time - h := by
  unfold FilteredInput.left
  cases i.held <;> simp [eq_comm]

theorem SafetyInput.left_eq_some (i : SafetyInput) (x : Nat) :
    i.left = some x ↔ i.owed = true ∧ x = 0 ∨ i.owed = false ∧ ∃ h, i.input.held = some h ∧ x = 4 - h := by
  unfold SafetyInput.left
  cases i.owed
  · simp [FilteredInput.left_eq_some, safetyFilterTime]
  · simp [eq_comm]

theorem State.mem_channelLeft (s : State) (k : Fin 6) (x : Nat) : some x ∈ s.channelLeft k ↔
    s.frozen k = false ∧ ((s.chan k).stallLeft = some x ∨ ∃ l, (s.chan k).windowLeft = some ⟨x, l⟩) := by
  unfold State.channelLeft
  cases s.frozen k with
  | true => simp
  | false =>
    have window : some x = (s.chan k).windowLeft.map (·.left) ↔ ∃ l, (s.chan k).windowLeft = some ⟨x, l⟩ := by
      rcases (s.chan k).windowLeft with _ | ⟨y, l⟩ <;> simp [eq_comm]
    simp [window, eq_comm (a := some x)]

/-- Every time that something still has to wait. -/
def State.timesLeft (s : State) : List (Option Nat) :=
  [s.safety.tripIn.left, s.safety.supplyOk.left, s.trip.watchLeft]
    ++ bankNumbers.map (fun b => s.safety.ovl[b].left)
    ++ countPinNumbers.map (fun p => (s.countPin p).left (countFilterTime (s.countFilterOf p)))
    ++ dinNumbers.map (fun n => (s.dinPin n).input.left (dinFilterTime (s.dinPin n).code))
    ++ lineNumbers.map (fun n => (s.line n).pulseLeft)
    ++ pairNumbers.map (fun j => (s.pair j).gapLeft)
    ++ channelNumbers.flatMap s.channelLeft

theorem State.untilDue_eq (s : State) : s.untilDue = soonest s.timesLeft := rfl

/-- What is waited for, by the times that are left. -/
theorem State.waits_iff (s : State) (x : Nat) : s.waits x ↔
    (∃ p, (s.countPin p).left (countFilterTime (s.countFilterOf p)) = some x)
    ∨ (∃ n, (s.dinPin n).input.left (dinFilterTime (s.dinPin n).code) = some x)
    ∨ (s.safety.tripIn.left = some x ∨ (∃ b : Fin 3, s.safety.ovl[b].left = some x) ∨ s.safety.supplyOk.left = some x)
    ∨ s.trip.watchLeft = some x ∨ (∃ n, (s.line n).pulseLeft = some x) ∨ (∃ j, (s.pair j).gapLeft = some x)
    ∨ ∃ k, some x ∈ s.channelLeft k := by
  have safety : (∃ i : SafetyInput, (i = s.safety.tripIn ∨ (∃ b : Fin 3, i = s.safety.ovl[b]) ∨ i = s.safety.supplyOk)
      ∧ i.left = some x) ↔
      s.safety.tripIn.left = some x ∨ (∃ b : Fin 3, s.safety.ovl[b].left = some x) ∨ s.safety.supplyOk.left = some x := by
    constructor
    · rintro ⟨i, rfl | ⟨b, rfl⟩ | rfl, h⟩
      · exact .inl h
      · exact .inr (.inl ⟨b, h⟩)
      · exact .inr (.inr h)
    · rintro (h | ⟨b, h⟩ | h)
      · exact ⟨_, .inl rfl, h⟩
      · exact ⟨_, .inr (.inl ⟨b, rfl⟩), h⟩
      · exact ⟨_, .inr (.inr rfl), h⟩
  rw [← safety]
  simp only [State.waits, FilteredInput.left_eq_some, SafetyInput.left_eq_some, State.mem_channelLeft]

theorem or_reorder (trip supply watch bank count din line pair channel : Prop) :
    ((((((((trip ∨ supply ∨ watch) ∨ bank) ∨ count) ∨ din) ∨ line) ∨ pair) ∨ channel) ↔
      (count ∨ din ∨ (trip ∨ bank ∨ supply) ∨ watch ∨ line ∨ pair ∨ channel)) := by
  tauto

theorem State.mem_timesLeft (s : State) (x : Nat) : some x ∈ s.timesLeft ↔ s.waits x := by
  rw [s.waits_iff, State.timesLeft]
  simp only [List.mem_append, List.mem_cons, List.not_mem_nil, or_false, List.mem_map, List.mem_flatMap,
    mem_bankNumbers, mem_countPinNumbers, mem_dinNumbers, mem_lineNumbers, mem_pairNumbers, mem_channelNumbers, true_and,
    eq_comm (a := some x)]
  exact or_reorder _ _ _ _ _ _ _ _ _

/-- The next instant is that of the least time. -/
theorem State.untilDue_eq_some (s : State) (d : Nat) :
    s.untilDue = some d ↔ s.waits d ∧ ∀ x, s.waits x → d ≤ x := by
  rw [s.untilDue_eq, soonest_eq_some]
  simp only [State.mem_timesLeft]

theorem State.untilDue_eq_none (s : State) : s.untilDue = none ↔ ∀ x, ¬s.waits x := by
  rw [s.untilDue_eq, soonest_eq_none_iff]
  simp only [State.mem_timesLeft]

end Sys2Proof.Machine
end

section
/-! Time passing to the next instant (R32, R38, R48, R97, R133, R148, R161, R166). -/

namespace Sys2Proof.Machine

variable {s t : State} {m : Message} {rest : List Message} {d : Nat}

/-! ### The state after a time in which nothing occurs -/

theorem tabulate6_getElem {α : Type} (f : Fin 6 → α) (k : Fin 6) : (tabulate6 f)[k] = f k := by fin_cases k <;> rfl

theorem State.elapse_countPin (s : State) (d : Nat) (p : Fin 12) : (s.elapse d).countPin p = (s.countPin p).elapse d :=
  tabulate12_getElem _ p

theorem State.elapse_dinPin (s : State) (d : Nat) (n : Fin 8) :
    (s.elapse d).dinPin n = { s.dinPin n with input := (s.dinPin n).input.elapse d } := tabulate8_getElem _ n

theorem State.elapse_ovl (s : State) (d : Nat) (b : Fin 3) : (s.elapse d).safety.ovl[b] = s.safety.ovl[b].elapse d :=
  tabulate3_getElem _ b

theorem State.elapse_line (s : State) (d : Nat) (n : Fin 12) : (s.elapse d).line n = (s.line n).elapse d :=
  tabulate12_getElem _ n

theorem State.elapse_pair (s : State) (d : Nat) (j : Fin 6) : (s.elapse d).pair j = (s.pair j).elapse d :=
  tabulate6_getElem _ j

theorem State.elapse_chan (s : State) (d : Nat) (k : Fin 6) :
    (s.elapse d).chan k = (s.chan k).elapse d (s.frozen k) := tabulate6_getElem _ k

/-- No channel changes its state or its active set while time passes. -/
theorem Channel.elapse_kept (c : Channel) (d : Nat) (frozen : Bool) :
    (c.elapse d frozen).state = c.state ∧ (c.elapse d frozen).active = c.active := by
  cases frozen <;> exact ⟨rfl, rfl⟩

theorem State.elapse_frozen (s : State) (d : Nat) (k : Fin 6) : (s.elapse d).frozen k = s.frozen k := by
  unfold State.frozen
  rw [s.elapse_chan, ((s.chan k).elapse_kept d _).1]
  rfl

theorem State.elapse_countFilterOf (s : State) (d : Nat) (p : Fin 12) :
    (s.elapse d).countFilterOf p = s.countFilterOf p := by
  have hactive : ∀ k : Fin 6, ((s.elapse d).chan k).active = (s.chan k).active := fun k => by
    rw [s.elapse_chan, ((s.chan k).elapse_kept d _).2]
  simp only [State.countFilterOf, State.filterChannel, hactive]

/-- The pins keep their resolved levels: a timer that counts down neither ends nor begins. -/
theorem State.elapse_resolvedPin (s : State) (d : Nat) (n : Fin 12) : (s.elapse d).resolvedPin n = s.resolvedPin n := by
  have gap : ∀ j : Fin 6, ((s.elapse d).pair j).gapLeft.isSome = (s.pair j).gapLeft.isSome := fun j => by
    rw [s.elapse_pair]; exact Option.isSome_map
  have paired : ∀ j : Fin 6, ((s.elapse d).pair j).paired = (s.pair j).paired := fun j => by rw [s.elapse_pair]; rfl
  have target : ∀ j : Fin 6, (s.elapse d).target j = s.target j := fun j => by
    unfold State.target
    rw [s.elapse_line]; rfl
  have pairing : (s.elapse d).pairing n = s.pairing n := by rw [State.pairing, paired]; rfl
  simp only [State.resolvedPin, pairing, gap, target, s.elapse_line]
  rfl

/-! ### What is due, as conditions (R32) -/

theorem FilteredInput.due_eq_any (i : FilteredInput) (time : Nat) :
    i.due time = i.held.any fun h => decide (time ≤ h) := by
  unfold FilteredInput.due
  cases i.held <;> rfl

/-- The pins of a mask are those that the flags name. -/
theorem State.dueCountMask_bit (s : State) (p : Fin 12) : s.dueCountMask.getLsbD p.val = s.countDue p := by
  rw [State.dueCountMask, BitVec.getLsbD_setWidth, getLsbD_placeFlags]
  fin_cases p <;> simp [countPinNumbers]

theorem State.dueDinMask_bit (s : State) (n : Fin 8) : s.dueDinMask.getLsbD n.val = s.dinDue n := by
  rw [State.dueDinMask, BitVec.getLsbD_setWidth, getLsbD_placeFlags]
  fin_cases n <;> simp [dinNumbers]

/-- The channel that filters a pin: CA of an odd channel of a SPAN pair is filtered by the even one (R39, R47). -/
theorem State.filterChannel_eq (s : State) (p : Fin 12) : s.filterChannel p =
    if p.val % 4 = 2 ∧ (s.chan (partner (channelOfPin p))).active.mode = .span then partner (channelOfPin p)
    else channelOfPin p := by
  have odd : p = pinCA (channelOfPin p) ∧ isEven (channelOfPin p) = false ↔ p.val % 4 = 2 := by
    revert p; decide
  simp only [State.filterChannel, ← and_assoc, odd]

/-! ### Steps without a command -/

theorem step_of_idle (h : s.pending = []) : step s = .next s.goOn := by
  rw [step, h]

/-- The Command Engine comes before the next instant (R23). -/
theorem State.goOn_of_takes (h : s.takes m rest) (hinit : s.initialising = false) (howes : s.owesAssertion = false) :
    s.goOn = s.endInstant.withPending [commandRow (headKind m.head)] := by
  obtain ⟨hciq, hroom⟩ := h
  have htake : s.endInstant.engineMayTake = true := by
    show (!s.port.ciq.isEmpty && decide (s.out.rnq.length < rnqSlots)) = true
    rw [hciq, decide_eq_true hroom]; rfl
  have hrow : s.endInstant.engineRow = [commandRow (headKind m.head)] := by
    rw [State.engineRow, State.nextMessage_of_takes (s := s.endInstant) ⟨hciq, hroom⟩]
  have howes : s.endInstant.owesAssertion = false := howes
  rw [State.goOn, State.proceed, if_neg (by exact Bool.eq_false_iff.mp hinit), howes, htake, hrow]
  rfl

/-- With no message to take, or an assertion owed, time passes. -/
theorem State.goOn_of_waits (hinit : s.initialising = false)
    (h : s.owesAssertion = true ∨ s.port.ciq = [] ∨ 32 ≤ s.out.rnq.length) : s.goOn = s.endInstant.passTime := by
  have hnot : ¬(!s.endInstant.owesAssertion && s.endInstant.engineMayTake) = true := by
    show ¬(!s.owesAssertion && (!s.port.ciq.isEmpty && decide (s.out.rnq.length < 32))) = true
    rcases h with h | h | h
    · rw [h]; simp
    · rw [h]; simp
    · rw [decide_eq_false (Nat.not_lt.mpr h)]; simp
  rw [State.goOn, State.proceed, if_neg (by exact Bool.eq_false_iff.mp hinit), if_neg hnot]

/-- The state when an instant has begun after a time d: its occurrences wait, and the pins hold their levels (R148). -/
def State.nextInstant (s : State) (d : Nat) : State :=
  (s.endInstant.elapse d).beginInstant.withPending (s.endInstant.elapse d).dueOccurrences

theorem State.passTime_of_due (h : s.untilDue = some d) : s.endInstant.passTime = s.nextInstant d := by
  have hdue : s.endInstant.untilDue = some d := h
  rw [State.passTime, hdue]
  rfl

theorem State.passTime_of_none (h : s.untilDue = none) : s.endInstant.passTime = s.endInstant := by
  have hdue : s.endInstant.untilDue = none := h
  rw [State.passTime, hdue]

/-- Through a step without a command every pin of a part that is ready has its resolved level (R148). -/
theorem State.goOn_pins (hready : s.power.ready = true) (hinit : s.initialising = false) :
    (∀ n : Fin 12, s.goOn.pinLevel n = s.resolvedPin n)
      ∧ (s.goOn.instant = none ∨ ∃ held, s.goOn.instant = some held ∧ ∀ n : Fin 12, held[n] = s.resolvedPin n) := by
  have between : ∀ l, (∀ n : Fin 12, (s.endInstant.withPending l).pinLevel n = s.resolvedPin n)
      ∧ ((s.endInstant.withPending l).instant = none ∨ ∃ held, (s.endInstant.withPending l).instant = some held
        ∧ ∀ n : Fin 12, held[n] = s.resolvedPin n) := fun l =>
    ⟨State.pinLevel_between (s := s.endInstant.withPending l) hready rfl, .inl rfl⟩
  by_cases htakes : s.owesAssertion = false ∧ ∃ m rest, s.takes m rest
  · obtain ⟨howes, m, rest, h⟩ := htakes
    rw [State.goOn_of_takes h hinit howes]
    exact between _
  · have hwaits : s.owesAssertion = true ∨ s.port.ciq = [] ∨ 32 ≤ s.out.rnq.length := by
      by_contra hnot
      simp only [not_or, Bool.not_eq_true, not_le] at hnot
      obtain ⟨howes, hciq, hroom⟩ := hnot
      obtain ⟨m, rest, hm⟩ := List.exists_cons_of_ne_nil hciq
      exact htakes ⟨howes, m, rest, hm, hroom⟩
    rw [State.goOn_of_waits hinit hwaits]
    cases hdue : s.untilDue with
    | none =>
      rw [State.passTime_of_none hdue]
      exact between s.endInstant.pending
    | some d =>
      rw [State.passTime_of_due hdue]
      have level : ∀ n : Fin 12, (s.endInstant.elapse d).pinLevel n = s.resolvedPin n := fun n => by
        rw [State.pinLevel_between (s := s.endInstant.elapse d) hready rfl, State.elapse_resolvedPin]; rfl
      have held : ∀ n : Fin 12, (tabulate12 (s.endInstant.elapse d).pinLevel)[n] = s.resolvedPin n := fun n => by
        rw [tabulate12_getElem, level]
      refine ⟨fun n => ?_, .inr ⟨_, rfl, held⟩⟩
      rw [State.pinLevel_within hready (s := s.nextInstant d) rfl]
      exact held n

/-! ### Answers and instants -/

/-- An idle part answers the message at the front of the CIQ in two steps (R23). -/
theorem step_step_of_takes (hidle : s.pending = []) (hinit : s.initialising = false) (howes : s.owesAssertion = false)
    (h : s.takes m rest) : ∃ (t u : State) (r : Reply), step s = .next t ∧ step t = .next (u.admitReply m r)
      ∧ u.pending = [] ∧ (u.port.ciq = rest ∨ u.port.ciq = []) := by
  have hfirst : step s = .next (s.endInstant.withPending [commandRow (headKind m.head)]) := by
    rw [step_of_idle hidle, State.goOn_of_takes h hinit howes]
  obtain ⟨u, r, hexec, hpending, hciq⟩ := exec_commandRow (s := s.endInstant.withPending []) (m := m) (rest := rest) h
  exact ⟨_, u, r, hfirst, hexec, hpending, hciq⟩

/-- Settles O18: the Command Engine's two steps, the soonest of the times left, and the table of what is due. -/
theorem idlePartAnswersNextMessage : Obligations.IdlePartAnswersNextMessage := by
  refine ⟨rfl, fun s hidle hinit => ⟨fun m rest howes h => ?answers, fun hnone hdue => ?stays, fun hready => ?pins⟩,
    fun s => ?passes⟩
  case answers =>
    obtain ⟨t, u, r, hfirst, hsecond, hpending, hciq⟩ := step_step_of_takes hidle hinit howes h
    exact ⟨t, _, replyMessage m r, hfirst, hsecond, hpending, List.getLast?_concat, headKind_makeHead .., headTag_makeHead ..,
      headChannel_makeHead .., hciq⟩
  case stays =>
    rw [step_of_idle hidle, State.goOn_of_waits hinit (.inr hnone), State.passTime_of_none hdue]
    rfl
  case pins => exact ⟨_, step_of_idle hidle, State.goOn_pins hready hinit⟩
  case passes =>
    intro counted waits
    have hcounted : ∀ p : Fin 12, counted p = countFilterTime (s.countFilterOf p) := fun p => by
      rw [State.countFilterOf, s.filterChannel_eq]
    have hwaits : ∀ x, waits x ↔ s.waits x := fun x => by
      simp only [waits, hcounted]
      exact Iff.rfl
    refine ⟨by simp only [hwaits, s.untilDue_eq_none], fun d => ⟨by simp only [hwaits, s.untilDue_eq_some], ?_⟩⟩
    intro hdue hidle hinit hnone later row at4
    refine ⟨s.nextInstant d, ?_, ?_, rfl, rfl, s.endInstant.elapse_countPin d, s.endInstant.elapse_dinPin d, rfl,
      s.endInstant.elapse_ovl d, rfl, s.endInstant.elapse_line d, s.endInstant.elapse_pair d, fun k => ?_,
      (s.endInstant.elapse d).dueCountMask, (s.endInstant.elapse d).dueDinMask, fun p => ?_, fun n => ?_, ?_⟩
    · rw [step_of_idle hidle, State.goOn_of_waits hinit hnone, State.passTime_of_due hdue]
    · rfl
    · exact (s.endInstant.elapse_chan d k).trans rfl
    · have hrestarted : (s.endInstant.elapse d).inputs.restarted = 0#12 := rfl
      refine ((s.endInstant.elapse d).dueCountMask_bit p).trans ?_
      rw [hcounted, State.countDue, FilteredInput.due_eq_any, State.elapse_countFilterOf, hrestarted, BitVec.getLsbD_zero, Bool.not_false,
        Bool.and_true]
      rfl
    · exact ((s.endInstant.elapse d).dueDinMask_bit n).trans (FilteredInput.due_eq_any _ _)
    · show (s.endInstant.elapse d).dueOccurrences = _
      simp only [State.dueOccurrences, State.dueCausesAsserting, State.dueTimers, State.dueInputs, State.dueWindows,
        State.dueCausesReleasing, State.tripInAsserts, State.overloadAsserts, State.supplyAsserts, State.tripInReleases,
        State.overloadReleases, State.supplyReleases, State.stallDue, State.elapse_frozen, FilteredInput.due_eq_any, List.append_assoc]
      rfl

end Sys2Proof.Machine
end

section
/-! Changes of the input pins (R38, R48, R161). -/

namespace Sys2Proof.Machine

/-- A pin of a ready part: a level away from the filtered one starts a candidate or lets it go on, a return drops it. -/
theorem FilteredInput.change_ready (i : FilteredInput) (level : Bool) : i.change true level =
    ⟨level, i.filtered, if level = i.filtered then none else some (i.held.getD 0)⟩ := by
  unfold FilteredInput.change
  by_cases hback : level = i.filtered
  · simp [hback]
  · cases i.held <;> simp [hback]

/-- Settles O48: the pins of the four kinds change alike. -/
theorem pinChangesStartAndDropCandidates : Obligations.PinChangesStartAndDropCandidates := by
  intro s level hready changed
  have hchange : ∀ i : FilteredInput, i.change s.power.ready level = changed i := fun i => by
    rw [hready, i.change_ready level]
  have hsafety : ∀ pin, exec (.safetyInputChange pin level) s = execSafetyInputChange pin level s := fun _ => rfl
  refine ⟨fun p => ?_, fun n => ?_, ?_, fun b => ?_, ?_⟩
  · show execCountInputChange p level s = _
    rw [execCountInputChange, hchange]; rfl
  · show execDinChange n level s = _
    rw [execDinChange, hchange]; rfl
  all_goals
    rw [hsafety]
    simp only [execSafetyInputChange, SafetyInput.change, hchange]
    rfl

end Sys2Proof.Machine
end

section
/-! SET_INPUTS: the filter codes and invert flags of the DINs, and the held values taken anew without an edge (R48, R53,
R55, R86, R97). -/

namespace Sys2Proof.Machine

variable {s : State} {m : Message} {rest : List Message}

/-- A DIN that takes a code: its candidate restarts when the code changes, and nothing else of the input changes (R48). -/
theorem DiscreteInput.configure_cases {d e : DiscreteInput} {code : BitVec 2} {invert : Bool}
    (h : e = d.configure code invert) : e.code = code ∧ e.invert = invert
      ∧ e.input = { d.input with held := if e.code = d.code then d.input.held else d.input.held.map fun _ => 0 } := by
  subst h
  refine ⟨rfl, rfl, ?_⟩
  by_cases hcode : code = d.code <;> simp [DiscreteInput.configure, hcode, FilteredInput.restart]

/-- The DINs of a list take their fields of the word, and nothing else of the front end changes (R55). -/
theorem FrontEnd.configureDins (w : Word) (l : List (Fin 8)) : ∀ f : FrontEnd, l.Nodup →
    (l.foldl (FrontEnd.configureDin w) f).count = f.count
      ∧ ∀ n : Fin 8, (l.foldl (FrontEnd.configureDin w) f).din[n] =
          if n ∈ l then f.din[n].configure (field w (2 * n.val) 2) (bit w (16 + n.val)) else f.din[n] := by
  induction l with
  | nil => exact fun f _ => ⟨rfl, fun n => by simp⟩
  | cons i l ih =>
    intro f hd
    obtain ⟨hi, hd⟩ := List.nodup_cons.mp hd
    obtain ⟨hcount, hdin⟩ := ih (f.configureDin w i) hd
    have hone : ∀ n : Fin 8, (f.configureDin w i).din[n] =
        if n = i then f.din[n].configure (field w (2 * n.val) 2) (bit w (16 + n.val)) else f.din[n] := fun n => by
      by_cases hn : n = i
      · subst hn; simp [FrontEnd.configureDin]
      · have hne : i.val ≠ n.val := fun hx => hn (Fin.ext hx.symm)
        simp [FrontEnd.configureDin, hn, Vector.getElem_set_ne, hne]
    refine ⟨hcount, fun n => ?_⟩
    rw [List.foldl_cons, hdin, hone]
    by_cases hn : n = i
    · subst hn; simp [hi]
    · simp [hn]

/-- To recompute channels changes each by itself, on the front end as it is (R53). -/
theorem State.recomputes_eq (f : FrontEnd) (l : List (Fin 6)) : ∀ s : State, s.inputs = f →
    l.foldl State.recompute s = l.foldl (fun t k => t.modChan k fun c => c.evaluate f c.active.stall) s := by
  induction l with
  | nil => exact fun _ _ => rfl
  | cons k l ih =>
    intro s hs
    rw [List.foldl_cons, List.foldl_cons, show s.recompute k = s.modChan k fun c => c.evaluate f c.active.stall by
      rw [State.recompute, hs]]
    exact ih _ hs

/-- Everything that the recomputation of all channels does. -/
theorem State.recomputeAll_cases (s : State) : s.recomputeAll = { s with channels := s.recomputeAll.channels }
    ∧ ∀ k : Fin 6, s.recomputeAll.chan k = (s.chan k).evaluate s.inputs (s.chan k).active.stall := by
  obtain ⟨hfields, hchan⟩ := State.modChans (fun c => c.evaluate s.inputs c.active.stall) channelNumbers s (by decide)
  rw [State.recomputeAll, State.recomputes_eq s.inputs channelNumbers s rfl]
  exact ⟨hfields, fun k => (hchan k).trans (if_pos (mem_channelNumbers k))⟩

/-- An evaluation takes the held values, and changes nothing else but the stall timer of a RUNNING channel. -/
theorem Channel.evaluate_holds {c d : Channel} {f : FrontEnd} (h : d = c.evaluate f c.active.stall) :
    d.Holds f ∧ d = { c with
      heldStart := d.heldStart, heldRestart := d.heldRestart, heldQuench := d.heldQuench, heldResync := d.heldResync
      gateOpen := d.gateOpen
      stallLeft :=
        if c.state ≠ .running then c.stallLeft
        else if d.gateOpen = false ∨ c.active.stall = 0#8 then none
        else if c.gateOpen = false then some (c.active.stall.toNat * tenMilliseconds)
        else c.stallLeft } := by
  rw [Channel.evaluate_eq] at h
  subst h
  exact ⟨⟨rfl, rfl, rfl, rfl, rfl⟩, rfl⟩

/-- SET_INPUTS below seal level 3 with one word passes the checks of its header. -/
theorem exec_setInputs {w : Word} (h : s.takes m rest) (hm : m.isCommand 0x18#8 15#4 0#9) (hbody : m.body = [w])
    (hseal : s.sealLevel.toNat < 3) : exec .setInputs s =
      .next ((State.setInputs m (s.takeMessage rest)).1.admitReply m (State.setInputs m (s.takeMessage rest)).2) := by
  rw [exec_engineCommand (c := .setInputs) rfl, State.command_device h hm rfl rfl]
  · simp [setInputsForm, CommandForm.frozenFrom, CommandForm.device, hbody]
  · simpa [setInputsForm, CommandForm.frozenFrom] using hseal

/-- Settles O49: the fields of the DINs, and the evaluation of each channel on them. -/
theorem setInputsRecomputesWithoutEdges : Obligations.SetInputsRecomputesWithoutEdges := by
  intro s m rest w h hm hbody hseal
  rw [exec_setInputs h hm hbody hseal, State.setInputs, Message.word_zero hbody]
  refine ⟨fun hbad => ?refused, fun hgood => ?accepted⟩
  case refused => rw [if_pos (show field w 24 8 ≠ 0#8 from hbad)]; rfl
  case accepted =>
    rw [if_neg (not_not_intro (show field w 24 8 = 0#8 from hgood))]
    generalize hf : dinNumbers.foldl (FrontEnd.configureDin w) (s.takeMessage rest).inputs = f
    obtain ⟨hcount, hdin⟩ := FrontEnd.configureDins w dinNumbers (s.takeMessage rest).inputs (by decide)
    rw [hf] at hcount hdin
    have hconfigured : ∀ n : Fin 8, f.din[n] = (s.dinPin n).configure (field w (2 * n.val) 2) (bit w (16 + n.val)) :=
      fun n => (hdin n).trans (if_pos (mem_dinNumbers n))
    obtain ⟨hfields, hchan⟩ := ((s.takeMessage rest).withInputs f).recomputeAll_cases
    generalize ((s.takeMessage rest).withInputs f).recomputeAll = u at hfields hchan
    have hinputs : u.inputs = f := by rw [hfields]; rfl
    have hdins : ∀ n : Fin 8, u.dinPin n = f.din[n] := fun n => by rw [State.dinPin, hinputs]
    refine ⟨u.admitReply m (.done []), rfl, ?_, ?_, fun n => ?_, fun k => ?_⟩
    · show State.admitReply _ _ _ = _
      rw [hfields]; rfl
    · exact (congrArg FrontEnd.count hinputs).trans hcount
    · exact DiscreteInput.configure_cases ((hdins n).trans (hconfigured n))
    · have hk : u.chan k = (s.chan k).evaluate u.inputs (s.chan k).active.stall := by rw [hinputs]; exact hchan k
      exact Channel.evaluate_holds hk

end Sys2Proof.Machine
end

section
/-! The words of a configuration set as fields side by side, and the fields read back from them (R50, R51, R62 to R66). -/

namespace Sys2Proof.Machine

/-! ### The codes of settings read back (R62, R63, R65) -/

theorem decodeMode_code (m : Mode) : decodeMode m.code = some m := by cases m <;> rfl
theorem decodeDecodeKind_code (d : DecodeKind) : decodeDecodeKind d.code = some d := by cases d <;> rfl
theorem decodeWindow_code (w : WindowLength) : decodeWindow w.code = some w := by cases w <;> rfl

theorem direction_of_flag (d : Direction) : (if (d == .down) = true then Direction.down else .up) = d := by cases d <;> rfl
theorem edge_of_flag (e : Edge) : (if (e == .fall) = true then Edge.fall else .rise) = e := by cases e <;> rfl
theorem reference_of_flag (r : Reference) : (if (r == .toGo) = true then Reference.toGo else .absolute) = r := by
  cases r <;> rfl
theorem order_of_flag (o : MarkOrder) : (if (o == .all) = true then MarkOrder.all else .sequential) = o := by cases o <;> rfl
theorem endPolicy_of_flag (e : EndPolicy) : (if (e == .hold) = true then EndPolicy.hold else .release) = e := by
  cases e <;> rfl

theorem captureEdge_of_code (e : CaptureEdge) :
    (if e.code = 1#2 then CaptureEdge.rise else if e.code = 2#2 then .fall else .both) = e := by cases e <;> rfl

/-- The number of a DIN, three bits wide, is the DIN. -/
theorem din_of_field (n : Fin 8) : (BitVec.ofNat 3 n.val).toFin = n := by revert n; decide

/-! ### Fields of a word read back -/

theorem field_place {w : Nat} (x : BitVec w) {lo n : Nat} (h : lo + n ≤ 32) : field (place 0 x) lo n = x.extractLsb' lo n := by
  apply BitVec.eq_of_getLsbD_eq
  intro i hi
  rw [field, BitVec.getLsbD_extractLsb', BitVec.getLsbD_extractLsb', getLsbD_place,
    decide_eq_true (show 0 ≤ lo + i ∧ lo + i < 32 by omega), Bool.true_and, Nat.sub_zero]

theorem bit_place {w : Nat} (x : BitVec w) {i : Nat} (h : i < 32) : bit (place 0 x) i = x.getLsbD i := by
  rw [bit, getLsbD_place, decide_eq_true ⟨i.zero_le, h⟩, Bool.true_and, Nat.sub_zero]

theorem getLsbD_append_low {v w i : Nat} {x : BitVec v} {y : BitVec w} (h : i < w) : (x ++ y).getLsbD i = y.getLsbD i := by
  rw [BitVec.getLsbD_append, if_pos h]

theorem getLsbD_append_high {v w i : Nat} {x : BitVec v} {y : BitVec w} (h : w ≤ i) :
    (x ++ y).getLsbD i = x.getLsbD (i - w) := by
  rw [BitVec.getLsbD_append, if_neg (Nat.not_lt.mpr h)]

theorem getLsbD_ofBool_zero (b : Bool) : (BitVec.ofBool b).getLsbD 0 = b := by cases b <;> rfl

/-! ### STAGE_MODE (R62) -/

theorem modeWord_eq (c : ChannelConfig) : modeWord c = place 0
    (0#22 ++ BitVec.ofBool (c.order == .all) ++ BitVec.ofBool (c.reference == .toGo) ++ BitVec.ofBool (c.edge == .fall)
      ++ c.decode.code ++ BitVec.ofBool (c.direction == .down) ++ c.mode.code) := by
  simp only [modeWord, place_append, place_zero, BitVec.or_zero, placeFlag_eq_place, BitVec.or_assoc]

theorem withModeWord_modeWord (c d : ChannelConfig) : withModeWord (modeWord c) d = some
    { d with
      mode := c.mode, direction := c.direction, decode := c.decode
      edge := c.edge, reference := c.reference, order := c.order } := by
  rw [modeWord_eq]
  simp (disch := decide) only [withModeWord, field_place, bit_place, BitVec.extractLsb'_append_eq_of_le,
    BitVec.extractLsb'_append_eq_of_add_le, getLsbD_append_low, getLsbD_append_high, Nat.reduceSub,
    BitVec.extractLsb'_eq_self, getLsbD_ofBool_zero, if_true,
    decodeMode_code, decodeDecodeKind_code, direction_of_flag, edge_of_flag, reference_of_flag, order_of_flag]

theorem modeWord_high (c : ChannelConfig) {i : Nat} (h : 10 ≤ i) : (modeWord c).getLsbD i = false := by
  have vacant : ∀ {n : Nat} (x : BitVec n) (lo : Nat), lo + n ≤ 10 → (place lo x).getLsbD i = false := fun x lo hx => by
    rw [getLsbD_place, BitVec.getLsbD_of_ge x (i - lo) (by omega), Bool.and_false]
  simp (disch := decide) only [modeWord, placeFlag, BitVec.getLsbD_or, vacant, Bool.or_self]

/-- The mode word has ten bits. -/
theorem modeWord_low (c : ChannelConfig) : modeWord c = place 0 ((modeWord c).extractLsb' 0 10) := by
  apply BitVec.eq_of_getLsbD_eq
  intro i hi
  rw [getLsbD_place, BitVec.getLsbD_extractLsb', decide_eq_true ⟨i.zero_le, hi⟩, Bool.true_and, Nat.sub_zero, Nat.zero_add]
  by_cases h : i < 10
  · rw [decide_eq_true h, Bool.true_and]
  · rw [decide_eq_false h, Bool.false_and, modeWord_high c (Nat.not_lt.mp h)]

/-! ### STAGE_TARGETS (R63) -/

theorem targetsWords_eq (c : ChannelConfig) : targetsWords c = [place 0 (0#1 ++ c.final),
    place 0 (0#13 ++ BitVec.ofBool (c.endPolicy == .hold) ++ c.window.code ++ c.repeats)] := by
  simp only [targetsWords, place_append, place_zero, BitVec.or_zero, placeFlag_eq_place, BitVec.or_assoc]

theorem withTargetsWords_targetsWords {c : ChannelConfig} (h : c.final ≠ 0#31) (d : ChannelConfig) :
    withTargetsWords (place 0 (0#1 ++ c.final))
        (place 0 (0#13 ++ BitVec.ofBool (c.endPolicy == .hold) ++ c.window.code ++ c.repeats)) d = some
      { d with final := c.final, repeats := c.repeats, window := c.window, endPolicy := c.endPolicy } := by
  simp (disch := decide) only [withTargetsWords, field_place, bit_place, BitVec.extractLsb'_append_eq_of_le,
    BitVec.extractLsb'_append_eq_of_add_le, getLsbD_append_low, getLsbD_append_high, Nat.reduceSub,
    BitVec.extractLsb'_eq_self, getLsbD_ofBool_zero, BitVec.getLsbD_zero, bne_iff_ne.mpr h, beq_self_eq_true,
    decide_true, Bool.and_self, if_true, decodeWindow_code, endPolicy_of_flag]

/-! ### STAGE_GUARD (R65) -/

/-- The fields of a gate. -/
def gateField : Option DinRef → BitVec 5
  | none => 0#5
  | some g => BitVec.ofBool g.inverted ++ BitVec.ofNat 3 g.din.val ++ 1#1

/-- The DIN field of a capture source. -/
def captureDinField : Option CaptureSource → BitVec 3
  | none => 0#3
  | some x => BitVec.ofNat 3 x.din.val

/-- The edge field of a capture source, 0 for none. -/
def captureEdgeField : Option CaptureSource → BitVec 2
  | none => 0#2
  | some x => x.edge.code

theorem gateBits_eq (g : Option DinRef) : gateBits g = place 0 (gateField g) := by
  cases g with
  | none => rfl
  | some g =>
    have din : placeNat 1 g.din.val = place 1 (BitVec.ofNat 3 g.din.val) := placeNat_eq_place 1 g.din.isLt
    rw [gateBits, gateField, din]
    simp only [place_append, placeFlag_eq_place, BitVec.or_assoc]
    rfl

theorem captureBits_eq (x : Option CaptureSource) : captureBits x = place 5 (captureDinField x ++ captureEdgeField x) := by
  cases x with
  | none => rfl
  | some x =>
    have din : placeNat 7 x.din.val = place 7 (BitVec.ofNat 3 x.din.val) := placeNat_eq_place 7 x.din.isLt
    rw [captureBits, din, place_append]
    rfl

theorem guardWords_eq (c : ChannelConfig) : guardWords c =
    [place 0 (0#20 ++ c.countFilter ++ captureDinField c.captureSource ++ captureEdgeField c.captureSource ++ gateField c.gate),
     place 0 (0#20 ++ BitVec.ofBool c.notifyState ++ BitVec.ofBool c.notifyRate ++ BitVec.ofBool c.notifyCycles
      ++ BitVec.ofBool c.faultTrips ++ c.stall)] := by
  simp only [guardWords, gateBits_eq, captureBits_eq, place_append, place_zero, BitVec.or_zero, placeFlag_eq_place,
    BitVec.or_assoc]

theorem gateField_reads (g : Option DinRef) : (if (gateField g).getLsbD 0 = true then
    some ⟨((gateField g).extractLsb' 1 3).toFin, (gateField g).getLsbD 4⟩ else none) = g := by
  cases g with
  | none => rfl
  | some g =>
    simp (disch := decide) only [gateField, BitVec.extractLsb'_append_eq_of_le, BitVec.extractLsb'_append_eq_of_add_le,
      getLsbD_append_low, getLsbD_append_high, Nat.reduceSub, BitVec.extractLsb'_eq_self, getLsbD_ofBool_zero, din_of_field]
    rfl

theorem captureFields_read (x : Option CaptureSource) : (if captureEdgeField x = 0#2 then none else
    some ⟨(captureDinField x).toFin,
      if captureEdgeField x = 1#2 then .rise else if captureEdgeField x = 2#2 then .fall else .both⟩) = x := by
  cases x with
  | none => rfl
  | some x =>
    have coded : x.edge.code ≠ 0#2 := by cases x.edge <;> decide
    show (if x.edge.code = 0#2 then none else some ⟨(BitVec.ofNat 3 x.din.val).toFin,
      if x.edge.code = 1#2 then .rise else if x.edge.code = 2#2 then .fall else .both⟩) = some x
    rw [if_neg coded, captureEdge_of_code, din_of_field]

/-- A gate of NONE and a capture source of NONE leave the rest of their fields 0. -/
theorem guardFields_allowed (g : Option DinRef) (x : Option CaptureSource) :
    ((gateField g).getLsbD 0 = true ∨ (gateField g).extractLsb' 1 4 = 0#4)
      ∧ (captureEdgeField x ≠ 0#2 ∨ captureDinField x = 0#3) := by
  refine ⟨?_, ?_⟩
  · cases g with
    | none => exact .inr rfl
    | some g => exact .inl (getLsbD_append_low (by decide))
  · cases x with
    | none => exact .inr rfl
    | some x => exact .inl (by rw [captureEdgeField]; cases x.edge <;> decide)

theorem withGuardWords_guardWords (c d : ChannelConfig) : withGuardWords
    (place 0 (0#20 ++ c.countFilter ++ captureDinField c.captureSource ++ captureEdgeField c.captureSource ++ gateField c.gate))
    (place 0 (0#20 ++ BitVec.ofBool c.notifyState ++ BitVec.ofBool c.notifyRate ++ BitVec.ofBool c.notifyCycles
      ++ BitVec.ofBool c.faultTrips ++ c.stall)) d = some
      { d with
        gate := c.gate, captureSource := c.captureSource, countFilter := c.countFilter, stall := c.stall
        faultTrips := c.faultTrips, notifyCycles := c.notifyCycles, notifyRate := c.notifyRate
        notifyState := c.notifyState } := by
  obtain ⟨hgate, hcapture⟩ := guardFields_allowed c.gate c.captureSource
  simp (disch := decide) only [withGuardWords, decodeGate, decodeCapture, field_place, bit_place,
    BitVec.extractLsb'_append_eq_of_le, BitVec.extractLsb'_append_eq_of_add_le, getLsbD_append_low, getLsbD_append_high,
    Nat.reduceSub, BitVec.extractLsb'_eq_self, getLsbD_ofBool_zero, hgate, hcapture, and_self, if_true, gateField_reads,
    captureFields_read]

/-! ### Term descriptors and STAGE_TERMS (R50, R51, R64) -/

/-- The four bits of a reference in a descriptor. -/
def DinRef.bits (r : DinRef) : BitVec 4 := BitVec.ofBool r.inverted ++ BitVec.ofNat 3 r.din.val

theorem refBits_eq {i : Nat} (h : i < 3) (r : DinRef) : refBits i r = r.bits.setWidth 16 <<< (3 + 4 * i) := by
  obtain ⟨din, inverted⟩ := r
  unfold refBits DinRef.bits
  simp only
  interval_cases i <;> revert din inverted <;> decide

/-- The four bits of reference i of a term, 0 where there is none. -/
def refField (refs : List DinRef) (i : Nat) : BitVec 4 :=
  match refs[i]? with
  | some r => r.bits
  | none => 0#4

theorem refsBits_eq {refs : List DinRef} (h : refs.length ≤ 3) : refsBits 0 refs =
    (refField refs 0).setWidth 16 <<< 3 ||| ((refField refs 1).setWidth 16 <<< 7 ||| (refField refs 2).setWidth 16 <<< 11) := by
  obtain _ | ⟨a, _ | ⟨b, _ | ⟨c, _ | ⟨_, _⟩⟩⟩⟩ := refs
  case cons.cons.cons.cons => simp only [List.length_cons] at h; omega
  all_goals simp [refsBits, refBits_eq, refField]

/-- A descriptor from its fields. -/
theorem descriptor_eq (a b c : BitVec 4) (o : Bool) (n : BitVec 2) :
    n.setWidth 16 ||| ((BitVec.ofBool o).setWidth 16 <<< 2)
      ||| (a.setWidth 16 <<< 3 ||| (b.setWidth 16 <<< 7 ||| c.setWidth 16 <<< 11)) = 0#1 ++ c ++ b ++ a ++ BitVec.ofBool o ++ n := by
  apply BitVec.eq_of_getLsbD_eq
  intro i hi
  simp only [BitVec.getLsbD_append, BitVec.getLsbD_or, BitVec.getLsbD_shiftLeft, BitVec.getLsbD_setWidth]
  interval_cases i <;> simp

theorem encodeTerm_eq {x : Term} (h : x.refs.length ≤ 3) : encodeTerm x =
    0#1 ++ refField x.refs 2 ++ refField x.refs 1 ++ refField x.refs 0 ++ BitVec.ofBool (x.operator == .disj)
      ++ BitVec.ofNat 2 x.refs.length := by
  have count : BitVec.ofNat 16 x.refs.length = (BitVec.ofNat 2 x.refs.length).setWidth 16 := by
    generalize x.refs.length = n at h
    interval_cases n <;> rfl
  rw [← descriptor_eq, encodeTerm, refsBits_eq h, count]

/-- Reference bits read back. -/
theorem DinRef.bits_read (r : DinRef) : (⟨(r.bits.extractLsb' 0 3).toFin, r.bits.getLsbD 3⟩ : DinRef) = r := by
  simp (disch := decide) only [DinRef.bits, BitVec.extractLsb'_append_eq_of_add_le, getLsbD_append_high, Nat.reduceSub,
    BitVec.extractLsb'_eq_self, getLsbD_ofBool_zero, din_of_field]

section
variable (a b c : BitVec 4) (o : Bool) (n : BitVec 2)

/-- The fields of a descriptor side by side: bit 15, the references, the operator and the count (R51). -/
def descriptor : BitVec (1 + 4 + 4 + 4 + 1 + 2) := 0#1 ++ c ++ b ++ a ++ BitVec.ofBool o ++ n

theorem descriptor_head : (descriptor a b c o n).extractLsb' 0 2 = n ∧ (descriptor a b c o n).getLsbD 2 = o := by
  simp (disch := decide) only [descriptor, BitVec.extractLsb'_append_eq_of_add_le, getLsbD_append_low, getLsbD_append_high,
    Nat.reduceSub, BitVec.extractLsb'_eq_self, getLsbD_ofBool_zero, and_self]

theorem descriptor_ref : (descriptor a b c o n).extractLsb' 3 3 = a.extractLsb' 0 3 ∧ (descriptor a b c o n).getLsbD 6 = a.getLsbD 3
    ∧ (descriptor a b c o n).extractLsb' 7 3 = b.extractLsb' 0 3 ∧ (descriptor a b c o n).getLsbD 10 = b.getLsbD 3
    ∧ (descriptor a b c o n).extractLsb' 11 3 = c.extractLsb' 0 3 ∧ (descriptor a b c o n).getLsbD 14 = c.getLsbD 3 := by
  simp (disch := decide) only [descriptor, BitVec.extractLsb'_append_eq_of_le, BitVec.extractLsb'_append_eq_of_add_le,
    getLsbD_append_low, getLsbD_append_high, Nat.reduceSub, and_self]

theorem descriptor_high : descriptor a b c o n >>> 15 = 0#16 ∧ descriptor a b 0#4 o n >>> 11 = 0#16
    ∧ descriptor a 0#4 0#4 o n >>> 7 = 0#16 ∧ descriptor 0#4 0#4 0#4 o n >>> 3 = 0#16 := by
  refine ⟨?_, ?_, ?_, ?_⟩
  all_goals
    apply BitVec.eq_of_getLsbD_eq
    intro i hi
    rw [BitVec.getLsbD_ushiftRight]
    simp only [descriptor, BitVec.getLsbD_append]
    interval_cases i <;> simp

end

theorem decodeTerm_of_fields {d : BitVec 16} {o : Bool} {n : BitVec 2} (hhead : d.extractLsb' 0 2 = n ∧ d.getLsbD 2 = o)
    (hhigh : d >>> (3 + 4 * n.toNat) = 0#16) (hnever : n = 0#2 → o = false) : decodeTerm d =
      some ⟨if o then .disj else .conj, [termRef d 0, termRef d 1, termRef d 2].take n.toNat⟩ := by
  obtain ⟨hcount, hoperator⟩ := hhead
  have allowed : n.toNat ≠ 0 ∨ o = false := by
    by_cases hn : n = 0#2
    · exact .inr (hnever hn)
    · exact .inl fun hx => hn (BitVec.eq_of_toNat_eq hx)
  simp only [decodeTerm, hcount, hoperator, hhigh, allowed, and_self, if_true]

theorem operator_of_flag (o : TermOperator) : (if (o == .disj) = true then TermOperator.disj else .conj) = o := by
  cases o <;> rfl

theorem termRef_eq {d : BitVec 16} {r : DinRef} {i : Nat} (hdin : d.extractLsb' (3 + 4 * i) 3 = r.bits.extractLsb' 0 3)
    (hinverted : d.getLsbD (6 + 4 * i) = r.bits.getLsbD 3) : termRef d i = r := by
  rw [termRef, hdin, hinverted, DinRef.bits_read]

/-- A term of one to three references, from its count and the references in order. -/
theorem decodeTerm_of_refs {d : BitVec 16} {operator : TermOperator} {n : BitVec 2} {refs : List DinRef}
    (hhead : d.extractLsb' 0 2 = n ∧ d.getLsbD 2 = (operator == .disj)) (hhigh : d >>> (3 + 4 * n.toNat) = 0#16)
    (hn : n ≠ 0#2) (hrefs : [termRef d 0, termRef d 1, termRef d 2].take n.toNat = refs) :
    decodeTerm d = some ⟨operator, refs⟩ := by
  rw [decodeTerm_of_fields hhead hhigh fun hx => absurd hx hn, operator_of_flag, hrefs]

/-- A well-formed term reads back from its descriptor, by the number of its references. -/
theorem decodeTerm_encodeTerm {x : Term} (h : x.wellFormed) : decodeTerm (encodeTerm x) = some x := by
  obtain ⟨operator, refs⟩ := x
  obtain ⟨hlength, hnever⟩ := h
  rw [encodeTerm_eq hlength]
  obtain _ | ⟨a, _ | ⟨b, _ | ⟨c, _ | ⟨_, _⟩⟩⟩⟩ := refs
  case nil =>
    obtain rfl : operator = .conj := hnever rfl
    rfl
  case cons.nil =>
    obtain ⟨hdin, hinverted, -⟩ := descriptor_ref a.bits 0#4 0#4 (operator == .disj) 1#2
    obtain ⟨-, -, hhigh, -⟩ := descriptor_high a.bits 0#4 0#4 (operator == .disj) 1#2
    exact decodeTerm_of_refs (descriptor_head _ _ _ _ _) hhigh (by decide : (1#2) ≠ 0#2)
      (congrArg (· :: []) (termRef_eq hdin hinverted))
  case cons.cons.nil =>
    obtain ⟨hdin, hinverted, hdin', hinverted', -⟩ := descriptor_ref a.bits b.bits 0#4 (operator == .disj) 2#2
    obtain ⟨-, hhigh, -⟩ := descriptor_high a.bits b.bits 0#4 (operator == .disj) 2#2
    exact decodeTerm_of_refs (descriptor_head _ _ _ _ _) hhigh (by decide : (2#2) ≠ 0#2)
      (congrArg₂ (fun x y => [x, y]) (termRef_eq hdin hinverted) (termRef_eq hdin' hinverted'))
  case cons.cons.cons.nil =>
    obtain ⟨hdin, hinverted, hdin', hinverted', hdin'', hinverted''⟩ :=
      descriptor_ref a.bits b.bits c.bits (operator == .disj) 3#2
    obtain ⟨hhigh, -⟩ := descriptor_high a.bits b.bits c.bits (operator == .disj) 3#2
    exact decodeTerm_of_refs (descriptor_head _ _ _ _ _) hhigh (by decide : (3#2) ≠ 0#2)
      (congrArg₂ List.cons (termRef_eq hdin hinverted)
        (congrArg₂ (fun x y => [x, y]) (termRef_eq hdin' hinverted') (termRef_eq hdin'' hinverted'')))
  case cons.cons.cons.cons => simp only [List.length_cons] at hlength; omega

/-- A word of two halves, each of which reads back. -/
theorem halves_read (x y : BitVec 16) : field (place 0 x ||| place 16 y) 0 16 = x ∧ field (place 0 x ||| place 16 y) 16 16 = y := by
  rw [show place 0 x ||| place 16 y = place 0 (y ++ x) from (place_append 0 y x).symm]
  simp (disch := decide) only [field_place, BitVec.extractLsb'_append_eq_of_le, BitVec.extractLsb'_append_eq_of_add_le,
    Nat.reduceSub, BitVec.extractLsb'_eq_self, and_self]

theorem withTermsWords_termsWords {c : ChannelConfig} (hstart : c.startTerm.wellFormed) (hrestart : c.restartTerm.wellFormed)
    (hquench : c.quenchTerm.wellFormed) (hresync : c.resyncTerm.wellFormed) (d : ChannelConfig) :
    withTermsWords (place 0 (encodeTerm c.startTerm) ||| place 16 (encodeTerm c.restartTerm))
        (place 0 (encodeTerm c.quenchTerm) ||| place 16 (encodeTerm c.resyncTerm)) d = some
      { d with
        startTerm := c.startTerm, restartTerm := c.restartTerm
        quenchTerm := c.quenchTerm, resyncTerm := c.resyncTerm } := by
  simp only [withTermsWords, halves_read, decodeTerm_encodeTerm, hstart, hrestart, hquench, hresync]

/-! ### READ_CONFIG (R66) -/

theorem readConfigHead_eq (c : Channel) (x : ChannelConfig) (h : x.marks.length ≤ 8) :
    modeWord x ||| placeNat 24 x.marks.length ||| placeFlag 30 (c.state == .lent) ||| placeFlag 31 c.commitPending =
      place 0 (BitVec.ofBool c.commitPending ++ BitVec.ofBool (c.state == .lent) ++ 0#2 ++ BitVec.ofNat 4 x.marks.length
        ++ 0#14 ++ (modeWord x).extractLsb' 0 10) := by
  have count : placeNat 24 x.marks.length = place 24 (BitVec.ofNat 4 x.marks.length) := placeNat_eq_place 24 (by omega)
  simp only [place_append, place_zero, BitVec.zero_or, ← modeWord_low, placeFlag_eq_place, count, BitVec.or_assoc]

/-- Settles O22: each word is its fields side by side, from which the fields read back. -/
theorem stagedFieldsReadBack : Obligations.StagedFieldsReadBack := by
  refine ⟨fun c => ⟨?mode, ?targets, ?terms, ?guard⟩, fun x hlength => ?descriptor, fun c x hmarks => ?head,
    fun c d => ⟨withModeWord_modeWord c d, fun hfinal => ?targetsBack, fun hstart hrestart hquench hresync => ?termsBack, ?guardBack⟩⟩
  case mode => exact (modeWord_eq c).trans (place_zero_self _)
  case targets => exact (targetsWords_eq c).trans (congrArg₂ (fun x y => [x, y]) (place_zero_self _) (place_zero_self _))
  case terms => rw [append_halves, append_halves]; rfl
  case guard =>
    exact (guardWords_eq c).trans (congrArg₂ (fun x y => [x, y]) (place_zero_self _) (place_zero_self _))
  case descriptor => exact encodeTerm_eq hlength
  case head => exact congrArg (· :: _) ((readConfigHead_eq c x hmarks).trans (place_zero_self _))
  case targetsBack => exact ⟨_, _, targetsWords_eq c, withTargetsWords_targetsWords hfinal d⟩
  case termsBack => exact ⟨_, _, rfl, withTermsWords_termsWords hstart hrestart hquench hresync d⟩
  case guardBack => exact ⟨_, _, guardWords_eq c, withGuardWords_guardWords c d⟩

end Sys2Proof.Machine
end

section
/-! Accepted count inputs: the candidates of an instant, and the steps and phase errors of every decode (R38 to R47). -/

namespace Sys2Proof.Machine

variable {s t : State} {k : Fin 6}

/-! ### The candidates accepted (R38, R39, R47) -/

theorem State.countDue_iff (s : State) (p : Fin 12) : s.countDue p = true ↔
    s.inputs.restarted.getLsbD p.val = false
      ∧ (s.countPin p).heldFor (countFilterTime (s.chan (s.filterChannel p)).active.countFilter) := by
  rw [State.countDue, State.countFilterOf, Bool.and_eq_true, FilteredInput.due_iff, Bool.not_eq_true', and_comm]

theorem State.acceptCounts_count (s : State) (pins : BitVec 12) (p : Fin 12) : (s.acceptCounts pins).count[p] =
    if pins.getLsbD p.val = true ∧ s.countDue p = true then (s.countPin p).flipped else s.countPin p :=
  (tabulate12_getElem _ p).trans (if_congr Bool.and_eq_true_iff rfl rfl)

/-! ### Steps and phase errors (R40 to R47) -/

theorem State.takeSteps_eq (before after : FrontEnd) (s : State) (k : Fin 6) :
    s.takeSteps before after k = (s.stepsOf before after k).foldl (State.takeStep k (s.chan k).gateOpen)
      (if s.phaseErrorOf before after k then
        s.setChan k { s.chan k with phaseErrors := saturatingAdd (s.chan k).phaseErrors 1 } else s) := rfl

theorem State.steps_silent {before after : FrontEnd} (h : (s.chan k).active.mode = .off ∨ (s.chan k).state = .lent) :
    s.stepsOf before after k = [] ∧ s.phaseErrorOf before after k = false := by
  refine ⟨if_pos h, ?_⟩
  simp only [State.phaseErrorOf, decide_eq_true h, Bool.not_true, Bool.false_and]

theorem State.steps_span {before after : FrontEnd} (hlent : (s.chan k).state ≠ .lent) (hspan : (s.chan k).active.mode = .span) :
    s.stepsOf before after k =
      (if countedEdge (s.chan k).active.edge before.count[pinCA k].filtered after.count[pinCA k].filtered then [true] else [])
        ++ (if countedEdge (s.chan k).active.edge before.count[pinCA (partner k)].filtered
            after.count[pinCA (partner k)].filtered then [false] else []) := by
  simp only [State.stepsOf, hspan, hlent, reduceCtorEq, or_self, if_false, if_true]

theorem State.steps_decode {before after : FrontEnd} (hlent : (s.chan k).state ≠ .lent) (hoff : (s.chan k).active.mode ≠ .off)
    (hspan : (s.chan k).active.mode ≠ .span) : s.stepsOf before after k =
      decodeSteps (s.chan k).active before.count[pinCA k].filtered before.count[pinCB k].filtered
        after.count[pinCA k].filtered after.count[pinCB k].filtered := by
  simp only [State.stepsOf, hlent, hoff, hspan, or_self, if_false]

theorem State.phaseError_decode {before after : FrontEnd} (hlent : (s.chan k).state ≠ .lent)
    (hoff : (s.chan k).active.mode ≠ .off) : s.phaseErrorOf before after k =
      decodePhaseError (s.chan k).active before.count[pinCA k].filtered before.count[pinCB k].filtered
        after.count[pinCA k].filtered after.count[pinCB k].filtered := by
  simp only [State.phaseErrorOf, hlent, hoff, or_self, decide_false, Bool.not_false, Bool.true_and]

/-- Pins that stay as they are make no step and no phase error, under any decode. -/
theorem decode_unchanged (c : ChannelConfig) (a b : Bool) : decodeSteps c a b a b = [] ∧ decodePhaseError c a b a b = false := by
  have still : ∀ x : Bool, countedEdge c.edge x x = false := fun x => by cases c.edge <;> cases x <;> rfl
  have unmoved : transition a b a b = .unchanged := by cases a <;> cases b <;> rfl
  unfold decodeSteps decodePhaseError
  cases c.decode <;> simp [still, unmoved, Transition.steps]

/-- The transitions of R44: one pin moves, forward or backward; both move, a phase error. -/
theorem transition_eq (a b a' b' : Bool) :
    (transition a b a' b').steps =
      (if [a, b, a', b'] ∈ [[false, false, true, false], [true, false, true, true], [true, true, false, true],
          [false, true, false, false]] then [true] else [])
        ++ (if [a, b, a', b'] ∈ [[true, false, false, false], [true, true, true, false], [false, true, true, true],
          [false, false, false, true]] then [false] else [])
      ∧ (transition a b a' b' == .phaseError) = ((a ^^ a') && (b ^^ b')) := by
  revert a b a' b'
  decide

/-- CA alone has moved: the only transitions that QUAD2 takes. -/
theorem transition_ca (a b a' b' : Bool) :
    (if a ≠ a' ∧ b = b' then (transition a b a' b').steps else []) = (if b = b' then (transition a b a' b').steps else [])
      ∧ (if a = false ∧ a' = true ∧ b = b' then (transition a b a' b').steps else []) =
        (if b = b' ∧ a = false ∧ a' = true then [!b] else []) := by
  revert a b a' b'
  decide

end Sys2Proof.Machine
end

section
/-! One step handed to a channel: ignored, or applied by mode (R78, R80, R84, R85, R92, R98, R131). -/

namespace Sys2Proof.Machine

variable {s t : State} {k : Fin 6}

/-! ### Applied or ignored (R84) -/

theorem ChannelState.live_of_counts {x : ChannelState} (h : x.counts = true) : x.live = true := by
  cases x <;> cases h <;> rfl

theorem State.appliesStep_iff (s : State) (k : Fin 6) (gate : Bool) : s.appliesStep k gate = true ↔
    (s.chan k).state.counts = true ∧ gate = true ∧ s.frozen k = false := by
  rw [State.appliesStep, Bool.and_eq_true, Bool.and_eq_true, Bool.not_eq_true', and_assoc]

/-- A channel that counts is frozen by a TRIPPED permit under FREEZE. -/
theorem State.appliesStep_iff_permit (s : State) (k : Fin 6) (gate : Bool) : s.appliesStep k gate = true ↔
    ((s.chan k).state = .running ∨ (s.chan k).state = .quenched) ∧ gate = true
      ∧ ¬(s.trip.permit = .tripped ∧ s.trip.config.policy = .freeze) := by
  rw [State.appliesStep_iff, ← ChannelState.counts_iff]
  refine and_congr_right fun hcounts => and_congr_right fun _ => ?_
  rw [← Bool.not_eq_true, State.frozen_iff, ChannelState.live_of_counts hcounts, and_iff_left rfl]

theorem State.takeStep_ignored {gate : Bool} (h : ¬s.appliesStep k gate = true) (forward : Bool) :
    State.takeStep k gate s forward = s := if_neg h

theorem State.takeStep_pace {gate : Bool} (h : s.appliesStep k gate = true) (hmode : (s.chan k).active.mode = .pace)
    (forward : Bool) : State.takeStep k gate s forward = s.modChan k (·.accumulate forward) := by
  rw [State.takeStep, if_pos h, hmode]

theorem State.takeStep_counting {gate : Bool} (h : s.appliesStep k gate = true)
    (hmode : (s.chan k).active.mode = .tally ∨ (s.chan k).active.mode = .span ∨ (s.chan k).active.mode = .loop)
    (forward : Bool) : State.takeStep k gate s forward = s.countStep k forward := by
  rw [State.takeStep, if_pos h]
  obtain hmode | hmode | hmode := hmode <;> rw [hmode]

/-! ### What an applied step does -/

theorem inRange_iff (x : Int) : inRange x = true ↔ -(2 ^ 31) ≤ x ∧ x < 2 ^ 31 := by
  rw [inRange, Bool.and_eq_true, decide_eq_true_iff, decide_eq_true_iff, Int.le_sub_one_iff]

/-- The counter value moved by a step (R78). -/
theorem Channel.stepped_eq (c : Channel) (forward : Bool) : c.stepped forward =
    c.value.toInt + (if forward = decide (c.active.direction = .up) then 1 else -1) := by
  unfold Channel.stepped
  cases c.active.direction <;> cases forward <;> rfl

theorem Channel.accumulate_eq (c : Channel) (forward : Bool) :
    let count := c.accumulator.toInt + (if forward then 1 else -1)
    c.accumulate forward = { c with accumulator := if -(2 ^ 31) ≤ count ∧ count < 2 ^ 31 then BitVec.ofInt 32 count else c.accumulator } := by
  intro count
  have hcount : (if forward then c.accumulator.toInt + 1 else c.accumulator.toInt - 1) = count := by
    cases forward <;> rfl
  rw [Channel.accumulate, hcount]
  by_cases h : -(2 ^ 31) ≤ count ∧ count < 2 ^ 31
  · rw [if_pos h]; exact if_pos ((inRange_iff count).mpr h)
  · rw [if_neg h]; exact if_neg (mt (inRange_iff count).mp h)

/-- An applied step restarts the stall timer in RUNNING and leaves it in QUENCHED (R85, R98). -/
theorem Channel.restartStall_eq (c : Channel) : c.restartStall =
    { c with stallLeft := if c.state = .running then c.stallTime else c.stallLeft } := by
  unfold Channel.restartStall Channel.fullStall Channel.stallTime
  by_cases h : c.state = .running <;> simp [h]

/-- The channel with a new counter value. -/
def Channel.movedTo (c : Channel) (next : Int) : Channel :=
  { c with value := BitVec.ofInt 32 next, stallLeft := if c.state = .running then c.stallTime else c.stallLeft }

theorem Channel.resyncStep_eq (c : Channel) : c.resyncStep = { c with
    value := c.active.loadValue, resyncPending := false
    stallLeft := if c.state = .running then c.stallTime else c.stallLeft } := Channel.restartStall_eq _

/-- A final value as a counter value. -/
theorem final_setWidth (x : BitVec 31) : x.setWidth 32 = 0#1 ++ x := BitVec.setWidth_eq_append (by decide : 31 ≤ 32)

/-- The load value of a counting mode (R78). -/
theorem ChannelConfig.loadValue_counting {c : ChannelConfig} (h : c.mode = .tally ∨ c.mode = .span ∨ c.mode = .loop) :
    c.loadValue = if c.direction = .up then 0#32 else 0#1 ++ c.final := by
  have counting : c.mode.counting = true := by obtain h | h | h := h <;> rw [h] <;> rfl
  rw [ChannelConfig.loadValue, counting, final_setWidth]
  cases c.direction <;> rfl

/-- The progress of a counting mode (R78). -/
theorem ChannelConfig.progress_counting {c : ChannelConfig} (h : c.mode = .tally ∨ c.mode = .span ∨ c.mode = .loop) {x : Int}
    (hx : -(2 ^ 31) ≤ x ∧ x < 2 ^ 31) :
    c.progress (BitVec.ofInt 32 x) = if c.direction = .up then x else (c.final.toNat : Int) - x := by
  have counting : c.mode.counting = true := by obtain h | h | h := h <;> rw [h] <;> rfl
  have value : (BitVec.ofInt 32 x).toInt = x := BitVec.toInt_ofInt_eq_self (by decide) hx.1 hx.2
  rw [ChannelConfig.progress, counting, value]
  cases c.direction <;> rfl

theorem State.countStep_resync (h : (s.chan k).resyncPending = true) (forward : Bool) :
    s.countStep k forward = s.modChan k Channel.resyncStep := if_pos h

theorem State.countStep_overflow {forward : Bool} (h : (s.chan k).resyncPending = false)
    (hrange : ¬inRange ((s.chan k).stepped forward) = true) : s.countStep k forward = s.channelFault k .overflow := by
  rw [State.countStep, if_neg (by rw [h]; decide), if_pos (Bool.eq_false_of_not_eq_true hrange)]

theorem State.countStep_moves {forward : Bool} {next : Int} (h : (s.chan k).resyncPending = false)
    (hnext : (s.chan k).stepped forward = next) (hrange : inRange next = true) : s.countStep k forward =
      if forward then (s.setChan k ((s.chan k).movedTo next)).afterForwardStep k
        ((s.chan k).active.progress (BitVec.ofInt 32 next))
      else s.setChan k ((s.chan k).movedTo next) := by
  rw [State.countStep, if_neg (by rw [h]; decide), hnext, if_neg (by rw [hrange]; decide)]
  simp only [Channel.restartStall_eq]
  rfl

theorem State.afterForwardStep_eq (s : State) (k : Fin 6) (p : Int) : s.afterForwardStep k p =
    let t := if (s.chan k).state = .running then s.fireMarks k p else s
    if p ≠ (s.chan k).active.finalValue then t
    else if (s.chan k).active.mode = .loop then t.cycleEnd k
    else t.completeRun k := by
  simp only [State.afterForwardStep, ite_not]

end Sys2Proof.Machine
end

section
/-! The marks that a step fires, under ALL and under SEQUENCE (R115, R118 to R120, R122). -/

namespace Sys2Proof.Machine

variable {s t u : State} {k : Fin 6}

/-- Channel k of t is a channel c whose marks have fired, with the given arming state. -/
def State.ArmedAs (k : Fin 6) (c : Channel) (a : Arming) (t : State) : Prop := c.SameButMarks (t.chan k) ∧ (t.chan k).arming = a

theorem State.ArmedAs.active {c : Channel} {a : Arming} (h : t.ArmedAs k c a) : (t.chan k).active = c.active := by
  rw [h.1]

theorem State.ArmedAs.value {c : Channel} {a : Arming} (h : t.ArmedAs k c a) : (t.chan k).value = c.value := by
  rw [h.1]

/-- A firing leaves the arming state. -/
theorem State.ArmedAs.fireMark {c : Channel} {a : Arming} (h : t.ArmedAs k c a) (i : Nat) (m : Mark) (value : Word) :
    (t.fireMark k i m value).ArmedAs k c a := by
  obtain ⟨-, hsame, -, -, -⟩ := t.fireMark_cases k i m value
  refine ⟨h.1.trans hsame.marks, ?_⟩
  rw [hsame]
  exact h.2

theorem State.ArmedAs.setArming {c : Channel} {a : Arming} (h : t.ArmedAs k c a) (b : Arming) :
    (t.setArming k b).ArmedAs k c b := by
  unfold State.ArmedAs State.setArming
  rw [State.chan_modChan_same]
  exact ⟨h.1.trans rfl, rfl⟩

/-! ### Under ALL (R118) -/

/-- Mark i fires under ALL: it is disarmed first. -/
def State.fireArmed (k : Fin 6) (value : Word) (t : State) (x : Mark × Nat) : State :=
  (t.setArming k (.flags ((t.chan k).arming.bits &&& ~~~(1#8 <<< x.2)))).fireMark k x.2 x.1 value

/-- To disarm a mark leaves the flags of the others. -/
theorem getLsbD_disarm (f : BitVec 8) {i j : Nat} (hj : j < 8) (h : j ≠ i) : (f &&& ~~~(1#8 <<< i)).getLsbD j = f.getLsbD j := by
  rw [BitVec.getLsbD_and, BitVec.getLsbD_not, getLsbD_oneShifted i hj, decide_eq_false h, decide_eq_true hj, Bool.not_false,
    Bool.and_true, Bool.and_true]

/-- One mark under ALL. -/
theorem State.fireFlag_eq {c : Channel} {f : BitVec 8} {m : Mark} {i : Nat} {p : Int} (h : t.ArmedAs k c (.flags f))
    (hm : c.active.marks[i]? = some m) : State.fireFlag p k t i =
      if (f.getLsbD i && decide (c.active.position m = p)) = true then t.fireArmed k c.value (m, i) else t := by
  rw [State.fireFlag, h.2, h.active, hm, State.fireArmed, h.2, h.value]
  exact if_congr (by rw [Bool.and_eq_true, decide_eq_true_iff]) rfl rfl

theorem State.fireFlag_none {c : Channel} {f : BitVec 8} {i : Nat} {p : Int} (h : t.ArmedAs k c (.flags f))
    (hm : c.active.marks[i]? = none) : State.fireFlag p k t i = t := by
  rw [State.fireFlag, h.2, h.active, hm]

theorem State.ArmedAs.fireArmed {c : Channel} {f : BitVec 8} (h : t.ArmedAs k c (.flags f)) (value : Word) (x : Mark × Nat) :
    (t.fireArmed k value x).ArmedAs k c (.flags (f &&& ~~~(1#8 <<< x.2))) := by
  rw [State.fireArmed, h.2]
  exact (h.setArming _).fireMark _ _ _

/-- The marks from index i on, in their order: those fire that are armed and reached. -/
theorem State.fireFlags_from {c : Channel} {f : BitVec 8} {p : Int} (n : Nat) : ∀ (i : Nat) (l : List Mark) (t : State) (g : BitVec 8),
    i + n = 8 → c.active.marks.drop i = l → l.length ≤ n → t.ArmedAs k c (.flags g) →
    (∀ j, i ≤ j → j < 8 → g.getLsbD j = f.getLsbD j) →
    (List.range' i n).foldl (State.fireFlag p k) t =
      ((l.zipIdx i).filter fun x => f.getLsbD x.2 && decide (c.active.position x.1 = p)).foldl (State.fireArmed k c.value) t := by
  induction n with
  | zero =>
    intro i l t g _ _ hlen _ _
    rw [List.length_eq_zero_iff.mp (Nat.le_zero.mp hlen)]
    rfl
  | succ n ih =>
    intro i l t g hi hl hlen harmed hflags
    have hnext : c.active.marks.drop (i + 1) = l.tail := by rw [← hl, List.tail_drop]
    rw [List.range'_succ, List.foldl_cons]
    cases l with
    | nil =>
      have hm : c.active.marks[i]? = none := by
        rw [List.getElem?_eq_none_iff]; exact List.drop_eq_nil_iff.mp hl
      rw [State.fireFlag_none harmed hm]
      exact ih (i + 1) [] t g (by omega) hnext (Nat.zero_le n) harmed fun j hj => hflags j (by omega)
    | cons m l =>
      have hm : c.active.marks[i]? = some m := by
        rw [← Nat.add_zero i, ← List.getElem?_drop, hl]; rfl
      rw [State.fireFlag_eq harmed hm, hflags i le_rfl (by omega), List.zipIdx_cons, List.filter_cons]
      split
      next hfires =>
        rw [List.foldl_cons]
        refine ih (i + 1) l _ _ (by omega) hnext (Nat.le_of_succ_le_succ hlen) (harmed.fireArmed _ _) fun j hj hj8 => ?_
        rw [getLsbD_disarm g hj8 (show j ≠ i by omega)]
        exact hflags j (by omega) hj8
      next => exact ih (i + 1) l t g (by omega) hnext (Nat.le_of_succ_le_succ hlen) harmed fun j hj => hflags j (by omega)

/-! ### Under SEQUENCE (R119) -/

/-- Mark i fires under SEQUENCE: the head moves on after it. -/
def State.fireInOrder (k : Fin 6) (c : ChannelConfig) (value : Word) (t : State) (x : Mark × Nat) : State :=
  (t.fireMark k x.2 x.1 value).setArming k (c.nextHead x.2)

theorem State.fireHead_none {c : Channel} (h : t.ArmedAs k c (.head none)) (p : Int) (n : Nat) : State.fireHead p k n t = t := by
  cases n with
  | zero => rfl
  | succ n => rw [State.fireHead, h.2]

theorem State.fireHead_past {c : Channel} {i : Nat} (h : t.ArmedAs k c (.head (some i))) (hm : c.active.marks[i]? = none)
    (p : Int) (n : Nat) : State.fireHead p k n t = t := by
  cases n with
  | zero => rfl
  | succ n =>
    rw [State.fireHead, h.2]
    simp only [h.active, hm]

/-- The marks from the head on: they fire as long as each is reached. -/
theorem State.fireHeads_from {c : Channel} {p : Int} (n : Nat) : ∀ (i : Nat) (l : List Mark) (t : State),
    c.active.marks.drop i = l → l.length ≤ n → t.ArmedAs k c (.head (some i)) →
    State.fireHead p k n t =
      ((l.zipIdx i).takeWhile fun x => decide (c.active.position x.1 = p)).foldl (State.fireInOrder k c.active c.value) t := by
  induction n with
  | zero =>
    intro i l t _ hlen _
    rw [List.length_eq_zero_iff.mp (Nat.le_zero.mp hlen)]
    rfl
  | succ n ih =>
    intro i l t hl hlen harmed
    have hnext : c.active.marks.drop (i + 1) = l.tail := by rw [← hl, List.tail_drop]
    cases l with
    | nil =>
      have hm : c.active.marks[i]? = none := by
        rw [List.getElem?_eq_none_iff]; exact List.drop_eq_nil_iff.mp hl
      exact State.fireHead_past harmed hm p _
    | cons m l =>
      have hm : c.active.marks[i]? = some m := by
        rw [← Nat.add_zero i, ← List.getElem?_drop, hl]; rfl
      rw [State.fireHead, harmed.2]
      simp only [harmed.active, harmed.value, hm]
      rw [List.zipIdx_cons, List.takeWhile_cons]
      by_cases hp : c.active.position m = p
      · rw [if_pos hp, if_pos (decide_eq_true hp), List.foldl_cons]
        have hfired : (t.fireInOrder k c.active c.value (m, i)).ArmedAs k c (c.active.nextHead i) :=
          (harmed.fireMark i m c.value).setArming _
        by_cases hmore : i + 1 < c.active.marks.length
        · rw [ChannelConfig.nextHead, if_pos hmore] at hfired
          exact ih (i + 1) l _ hnext (Nat.le_of_succ_le_succ hlen) hfired
        · rw [ChannelConfig.nextHead, if_neg hmore] at hfired
          have hlast : l = [] := by rw [← List.tail_cons (a := m) (as := l), ← hnext, List.drop_eq_nil_iff]; omega
          rw [hlast]
          exact State.fireHead_none hfired p n
      · rw [if_neg hp, if_neg (by simpa using hp)]
        rfl

/-! ### The firings of a step -/

theorem drop_zipIdx {α : Type} (l : List α) (i : Nat) : l.zipIdx.drop i = (l.drop i).zipIdx i := by
  apply List.ext_getElem?
  intro j
  rw [List.getElem?_drop, List.getElem?_zipIdx, List.getElem?_zipIdx, List.getElem?_drop, Nat.zero_add]

theorem State.fireMarks_flags {f : BitVec 8} (h : (s.chan k).active.marks.length ≤ 8) (harming : (s.chan k).arming = .flags f)
    (p : Int) : s.fireMarks k p = ((s.chan k).active.marks.zipIdx.filter fun x =>
      f.getLsbD x.2 && decide ((s.chan k).active.position x.1 = p)).foldl (State.fireArmed k (s.chan k).value) s := by
  rw [State.fireMarks, harming]
  exact State.fireFlags_from 8 0 _ s f rfl rfl h ⟨rfl, harming⟩ fun _ _ _ => rfl

theorem State.fireMarks_head {i : Nat} (h : (s.chan k).active.marks.length ≤ 8) (harming : (s.chan k).arming = .head (some i))
    (p : Int) : s.fireMarks k p = (((s.chan k).active.marks.zipIdx.drop i).takeWhile fun x =>
      decide ((s.chan k).active.position x.1 = p)).foldl (State.fireInOrder k (s.chan k).active (s.chan k).value) s := by
  rw [State.fireMarks, harming, drop_zipIdx]
  refine State.fireHeads_from markSlots i _ s rfl ?_ ⟨rfl, harming⟩
  rw [List.length_drop]
  exact (Nat.sub_le _ _).trans h

theorem State.fireMarks_idle (h : (s.chan k).arming = .head none) (p : Int) : s.fireMarks k p = s := by
  rw [State.fireMarks, h]
  exact State.fireHead_none ⟨rfl, h⟩ p markSlots

/-- Where no mark is reached, none fires. -/
theorem State.fireMarks_unreached {p : Int} (h : ∀ x ∈ (s.chan k).active.marks, (s.chan k).active.position x ≠ p) :
    s.fireMarks k p = s := by
  have unreached : ∀ {i : Nat} {m : Mark}, (s.chan k).active.marks[i]? = some m → (s.chan k).active.position m ≠ p :=
    fun hm => h _ (List.mem_of_getElem? hm)
  unfold State.fireMarks
  split
  next f harming =>
    have stays : ∀ i : Nat, State.fireFlag p k s i = s := fun i => by
      rw [State.fireFlag, harming]
      cases hm : (s.chan k).active.marks[i]? with
      | none => rfl
      | some m => exact if_neg fun hx => unreached hm hx.2
    generalize markNumbers = l
    induction l with
    | nil => rfl
    | cons i l ih => rw [List.foldl_cons, stays, ih]
  next i harming =>
    cases i with
    | none => exact State.fireHead_none ⟨rfl, harming⟩ p _
    | some i =>
      cases hm : (s.chan k).active.marks[i]? with
      | none => exact State.fireHead_past ⟨rfl, harming⟩ hm p _
      | some m =>
        rw [markSlots, State.fireHead, harming]
        simp only [hm]
        exact if_neg (unreached hm)

end Sys2Proof.Machine
end

section
/-! Completions (R87, R88, R91) and the boundaries that copy a staged set (R74, R75). -/

namespace Sys2Proof.Machine

variable {s t u w : State} {k : Fin 6}

/-! ### Notices and ordinals alone (R27, R31) -/

/-- From s to t the ordinal has advanced and notices have been offered; nothing else has changed. -/
structure State.Tells (s t : State) (count : BitVec 16) : Prop where
  fields : t = { s with port := t.port, out := t.out }
  notifies : s.onlyNotifies t
  ordinal : t.out.ordinal = s.out.ordinal + count

theorem State.Tells.nextOrdinal (s : State) : s.Tells s.nextOrdinal 1#16 := ⟨rfl, State.onlyNotifies_of_eq rfl rfl rfl, rfl⟩

theorem State.Tells.offer {count : BitVec 16} (h : s.Tells t count) (n : Notice) : s.Tells (t.offer n) count := by
  obtain ⟨hfields, hnotifies, hordinal⟩ := t.offer_cases n
  exact ⟨by rw [hfields, h.fields], State.onlyNotifies_trans h.notifies hnotifies, hordinal.trans h.ordinal⟩

theorem State.Tells.offerIf {count : BitVec 16} (h : s.Tells t count) (b : Bool) (n : Notice) : s.Tells (t.offerIf b n) count := by
  unfold State.offerIf
  split
  · exact h.offer n
  · exact h

/-! ### Entry to COMPLETE (R87, R88, R91) -/

/-- The lines and pairs after the end_policy of a completion of channel k, whose active set is given (R88, R142, R144). -/
structure State.EndPolicy (k : Fin 6) (set : ChannelConfig) (s t : State) : Prop where
  shut : t.matrix.shut = s.matrix.shut
  lines : ∀ n : Fin 12, t.line n =
    if set.endPolicy = .release ∧ (s.line n).owner = .channel k ∧ (s.line n).pulseLeft = none then (s.line n).cleared
    else s.line n
  pairs : ∀ j : Fin 6, t.pair j =
    if set.endPolicy = .release ∧ s.trip.permit = .permitted ∧ (s.pair j).paired = true
        ∧ (s.line (evenLine j)).owner = .channel k ∧ (s.line (evenLine j)).active = true
        ∧ (s.line (evenLine j)).pulseLeft = none then
      (s.pair j).inGap
    else s.pair j

/-- A line that is INACTIVE with an idle timer is as CLEAR leaves it. -/
theorem Line.cleared_of_idle {l : Line} (hactive : ¬l.active = true) (hpulse : l.pulseLeft = none) : l.cleared = l := by
  obtain ⟨owner, inverted, safe, active, pulseLeft⟩ := l
  obtain rfl : active = false := Bool.eq_false_of_not_eq_true hactive
  obtain rfl : pulseLeft = none := hpulse
  rfl

theorem State.partialRelease_endPolicy {set : ChannelConfig} (h : set.endPolicy = .release) (s : State) (k : Fin 6) :
    s.EndPolicy k set (s.partialRelease k) := by
  obtain ⟨-, hshut, hlines, hpairs⟩ := s.partialRelease_cases k
  refine ⟨hshut, fun n => ?_, fun j => ?_⟩
  · rw [hlines]
    by_cases hidle : (s.line n).owner = .channel k ∧ (s.line n).pulseLeft = none
    · rw [if_pos (⟨h, hidle⟩ : set.endPolicy = .release ∧ _)]
      split
      next => rfl
      next hinactive => exact (Line.cleared_of_idle (fun hx => hinactive ⟨hidle.1, hx, hidle.2⟩) hidle.2).symm
    · rw [if_neg fun hx => hidle ⟨hx.1, hx.2.2⟩, if_neg fun hx => hidle hx.2]
  · rw [hpairs]
    refine if_congr ⟨?_, ?_⟩ rfl rfl
    · rintro ⟨⟨howner, hactive, hpulse⟩, howned, hpermit⟩
      rw [State.ownedPair, Bool.and_eq_true] at howned
      exact ⟨h, hpermit, howned.1, howner, hactive, hpulse⟩
    · rintro ⟨-, hpermit, hpaired, howner, hactive, hpulse⟩
      exact ⟨⟨howner, hactive, hpulse⟩, by simp [State.ownedPair, hpaired, howner], hpermit⟩

theorem State.holds_endPolicy {set : ChannelConfig} (h : ¬set.endPolicy = .release) (s : State) (k : Fin 6) :
    s.EndPolicy k set s :=
  ⟨rfl, fun _ => (if_neg fun hx => h hx.1).symm, fun _ => (if_neg fun hx => h hx.1).symm⟩

/-- Everything that the entry to COMPLETE does. -/
theorem State.enterComplete_cases (s : State) (k : Fin 6) :
    s.enterComplete k = { s with channels := (s.enterComplete k).channels, matrix := (s.enterComplete k).matrix }
      ∧ (s.enterComplete k).chan k =
        { s.chan k with state := .complete, arming := Arming.disarmed (s.chan k).active.order, stallLeft := none }
      ∧ s.EndPolicy k (s.chan k).active (s.enterComplete k) := by
  unfold State.enterComplete
  generalize hv : s.modChan k (fun c => { c with
    state := .complete, arming := Arming.disarmed c.active.order, stallLeft := none }) = v
  have hchan : v.chan k =
      { s.chan k with state := .complete, arming := Arming.disarmed (s.chan k).active.order, stallLeft := none } := by
    rw [← hv, s.chan_modChan_same]
  have hfields : v = { s with channels := v.channels } := by rw [← hv]; rfl
  have hpolicy : (v.chan k).active.endPolicy = (s.chan k).active.endPolicy := by rw [hchan]
  have hactive : (v.chan k).active = (s.chan k).active := by rw [hchan]
  have hsettles : v.applyEndPolicy k = { v with matrix := (v.applyEndPolicy k).matrix }
      ∧ v.EndPolicy k (s.chan k).active (v.applyEndPolicy k) := by
    unfold State.applyEndPolicy
    rw [hactive]
    cases h : (s.chan k).active.endPolicy with
    | release => exact ⟨(v.partialRelease_cases k).1, State.partialRelease_endPolicy h v k⟩
    | hold => exact ⟨rfl, State.holds_endPolicy (by rw [h]; decide) v k⟩
  obtain ⟨hmatrix, hshut, hlines, hpairs⟩ := hsettles
  have hline : ∀ n, v.line n = s.line n := fun n => by rw [hfields]; rfl
  have hpair : ∀ j, v.pair j = s.pair j := fun j => by rw [hfields]; rfl
  have htrip : v.trip = s.trip := by rw [hfields]
  have hmat : v.matrix = s.matrix := by rw [hfields]
  generalize v.applyEndPolicy k = e at hmatrix hshut hlines hpairs
  refine ⟨by rw [hmatrix, hfields], by rw [← hchan, hmatrix]; rfl, by rw [hshut, hmat], fun n => ?_, fun j => ?_⟩
  · rw [hlines, hline]
  · rw [hpairs, hline, hpair, htrip]

/-! ### Completion (R87, R91, R102, R103) -/

/-- The channel after its completion with cycle index n: COMPLETE and disarmed, a pending commit applied. -/
def Channel.completed (c : Channel) (f : FrontEnd) (n : BitVec 16) : Channel :=
  { (if c.commitPending then c.withStagedActive f else c) with
    state := .complete, arming := Arming.disarmed (if c.commitPending then c.staged else c.active).order
    stallLeft := none, cycleIndex := n }

/-- From s to t the run of channel k has completed with cycle index n. -/
structure State.Completes (k : Fin 6) (n : BitVec 16) (s t : State) : Prop where
  fields : t = { s with port := t.port, out := t.out, inputs := t.inputs, channels := t.channels, matrix := t.matrix }
  notifies : s.onlyNotifies t
  restarts : s.onlyRestarts t
  ordinal : t.out.ordinal = s.out.ordinal + 1#16
  others : ∀ i : Fin 6, i ≠ k → t.chan i = s.chan i
  becomes : t.chan k = (s.chan k).completed s.inputs n
  policy : s.EndPolicy k (s.chan k).active t

/-- Entry to COMPLETE, one ordinal with its notices, and the boundary. -/
theorem State.completes_of {n : BitVec 16} (hu : u = { s with channels := u.channels })
    (hothers : ∀ i : Fin 6, i ≠ k → u.chan i = s.chan i) (hchan : u.chan k = { s.chan k with cycleIndex := n })
    (htells : (u.enterComplete k).Tells w 1#16) : s.Completes k n (w.pendingCopy k) := by
  obtain ⟨hfields, hcomplete, hshut, hlines, hpairs⟩ := u.enterComplete_cases k
  have hframe := u.enterComplete_frame k
  generalize u.enterComplete k = e at htells hfields hcomplete hshut hlines hpairs hframe
  have hwchan : ∀ i : Fin 6, w.chan i = e.chan i := fun i => by rw [htells.fields]; rfl
  have hstate : (w.chan k).state ≠ .running := by rw [hwchan, hcomplete]; simp
  obtain ⟨hbecomes, hrestarts, -, hcopied⟩ := State.pendingCopy_idle hstate
  have hcopyframe := w.pendingCopy_frame k
  have hw : w = { s with port := w.port, out := w.out, channels := w.channels, matrix := w.matrix } := by
    rw [htells.fields, hfields, hu]
  have hwmatrix : (w.pendingCopy k).matrix = e.matrix := by rw [hcopied, htells.fields]
  have hsmatrix : u.matrix = s.matrix := by rw [hu]
  have hstrip : u.trip = s.trip := by rw [hu]
  have hactive : (u.chan k).active = (s.chan k).active := by rw [hchan]
  have hwinputs : w.inputs = s.inputs := by rw [hw]
  generalize w.pendingCopy k = t at *
  refine ⟨by rw [hcopied, hw], ?_, ?_, ?_, fun i hi => ?_, ?_, ?_, fun i => ?_, fun j => ?_⟩
  · have hse : s.onlyNotifies e := State.onlyNotifies_of_eq (by rw [hfields, hu]) (by rw [hfields, hu]) (by rw [hfields, hu])
    exact State.onlyNotifies_trans (State.onlyNotifies_trans hse htells.notifies) hcopyframe.notifies
  · refine State.onlyRestarts_congr hrestarts (by rw [hwinputs]) (fun p => ?_) (fun i => ?_) rfl fun _ => rfl
    · rw [State.countPin, State.countPin, hwinputs]
    · rw [hwchan]
      by_cases hi : i = k
      · rw [hi, hcomplete]; exact hactive.symm
      · rw [hframe.others i hi, hothers i hi]
  · rw [hcopied]; exact htells.ordinal.trans (by rw [hfields, hu])
  · rw [hcopyframe.others i hi, hwchan, hframe.others i hi, hothers i hi]
  · rw [hbecomes, hwchan, hcomplete, hchan, hwinputs, Channel.completed, Channel.settled]
    cases hpending : (s.chan k).commitPending <;> simp [Channel.withStagedActive]
  · rw [hwmatrix, hshut, hsmatrix]
  · rw [State.line, hwmatrix]
    refine (hlines i).trans ?_
    rw [hactive, State.line, State.line, hsmatrix]
  · rw [State.pair, hwmatrix]
    refine (hpairs j).trans ?_
    rw [hactive, hstrip, State.line, State.line, State.pair, State.pair, hsmatrix]

/-- Completion of a TALLY or SPAN run (R87). -/
theorem State.completeRun_cases (s : State) (k : Fin 6) : s.Completes k (s.chan k).cycleIndex (s.completeRun k) :=
  State.completes_of rfl (fun _ _ => rfl) rfl ((State.Tells.nextOrdinal _).offer _)

/-- The channel whose cycle index has been increased. -/
def State.nextCycle (s : State) (k : Fin 6) : State := s.modChan k fun c => { c with cycleIndex := c.cycleIndex + 1#16 }

/-- The final cycle end (R91). -/
theorem State.finalCycleEnd_cases (s : State) (k : Fin 6) :
    s.Completes k ((s.chan k).cycleIndex + 1#16) ((s.nextCycle k).finalCycleEnd k) :=
  State.completes_of rfl (fun _ hi => s.chan_modChan_other hi _) (s.chan_modChan_same k _)
    (((State.Tells.nextOrdinal _).offerIf _ _).offer _)

end Sys2Proof.Machine
end

section
/-! Wraps and cycle ends (R75, R89, R90, R169). -/

namespace Sys2Proof.Machine

variable {s t u w : State} {k : Fin 6}

/-! ### A pending commit at a boundary in any state (R53, R74, R75, R97) -/

theorem Channel.evaluate_congr {f g : FrontEnd} (h : f.din = g.din) (c : Channel) (oldStall : Byte) :
    c.evaluate f oldStall = c.evaluate g oldStall := by
  obtain ⟨_, din, _⟩ := f
  obtain ⟨_, din', _⟩ := g
  obtain rfl : din = din' := h
  rfl

/-- The stall timer after a copy (R75, R86, R97): settled in RUNNING, as it was in every other state. -/
def Channel.stallAfterCopy (c : Channel) (f : FrontEnd) : Option Nat :=
  if c.state ≠ .running then c.stallLeft
  else if f.gateLevel c.staged.gate = false ∨ c.staged.stall = 0#8 then none
  else if c.gateOpen = false ∨ c.staged.stall ≠ c.active.stall then some (c.staged.stall.toNat * tenMilliseconds)
  else c.stallLeft

theorem Channel.evaluate_staged (c : Channel) (f : FrontEnd) :
    ({ c with active := c.staged, commitPending := false } : Channel).evaluate f c.active.stall =
      { c.withStagedActive f with stallLeft := c.stallAfterCopy f } := by
  unfold Channel.evaluate Channel.fullStall Channel.stallAfterCopy Channel.withStagedActive
  by_cases hrun : c.state = .running
  · by_cases hstop : f.gateLevel c.staged.gate = false ∨ c.staged.stall = 0#8
    · simp [hrun, hstop]
    · obtain ⟨hgate, hstall⟩ := not_or.mp hstop
      simp [hrun, hgate, hstall]
  · simp [hrun]

/-- A copy in any state: the channel, and the candidates that its new filter restarts. -/
theorem State.copyStaged_settled (s : State) (k : Fin 6) :
    (s.copyStaged k).chan k = { (s.chan k).withStagedActive s.inputs with stallLeft := (s.chan k).stallAfterCopy s.inputs }
      ∧ s.onlyRestarts (s.copyStaged k) := by
  unfold State.copyStaged
  simp only
  generalize hv : s.modChan k (fun c => { c with active := c.staged, commitPending := false }) = v
  have hchan : v.chan k = { s.chan k with active := (s.chan k).staged, commitPending := false } := by
    rw [← hv, s.chan_modChan_same]
  have hrestarts : s.onlyRestarts (State.refilter s v) := State.refilter_onlyRestarts (by rw [← hv]; rfl)
  obtain ⟨-, hfields⟩ := State.refilter_cases s v k
  have hchan' : (State.refilter s v).chan k = v.chan k := by rw [hfields]; rfl
  refine ⟨?_, State.onlyRestarts_congr hrestarts rfl (fun _ => rfl) (fun _ => rfl) rfl fun i => ?_⟩
  · rw [State.chan_modChan_same, hchan', hchan, Channel.evaluate_congr hrestarts.1, Channel.evaluate_staged]
  · rw [State.chan_modChan]
    split
    next hi => rw [hi, Channel.evaluate_same ((State.refilter s v).chan k)]
    next => rfl

/-- The channel after a boundary, but for its arming state. -/
def Channel.pastBoundary (c : Channel) (f : FrontEnd) : Channel :=
  if c.commitPending then { c.withStagedActive f with stallLeft := c.stallAfterCopy f } else c

/-- A boundary in any state (R74). -/
theorem State.pendingCopy_cases (s : State) (k : Fin 6) :
    (∃ a, (s.pendingCopy k).chan k = { (s.chan k).pastBoundary s.inputs with arming := a }) ∧ s.onlyRestarts (s.pendingCopy k)
      ∧ s.pendingCopy k = { s with inputs := (s.pendingCopy k).inputs, channels := (s.pendingCopy k).channels } := by
  unfold State.pendingCopy Channel.pastBoundary
  by_cases hpending : (s.chan k).commitPending = true
  · obtain ⟨hchan, hrestarts⟩ := s.copyStaged_settled k
    obtain ⟨-, -, hfields⟩ := s.copyStaged_cases k
    rw [if_pos hpending, if_pos hpending]
    refine ⟨⟨_, by rw [State.chan_modChan_same, hchan]⟩, ?_, ?_⟩
    · refine State.onlyRestarts_congr hrestarts rfl (fun _ => rfl) (fun _ => rfl) rfl fun i => ?_
      rw [State.chan_modChan]
      split
      next hi => rw [hi]
      next => rfl
    · generalize s.copyStaged k = v at hfields
      rw [hfields]; rfl
  · rw [if_neg hpending, if_neg hpending]
    exact ⟨⟨_, rfl⟩, s.onlyRestarts_refl, rfl⟩

/-! ### Auto-resume (R169) -/

/-- The enabled causes depend on the safety inputs, the trip unit and the states of the channels. -/
theorem State.enabledCauses_congr (hsafety : t.safety = s.safety) (htrip : t.trip = s.trip)
    (hstate : ∀ i : Fin 6, (t.chan i).state = (s.chan i).state) : t.enabledCauses = s.enabledCauses := by
  simp only [State.enabledCauses, State.enabledCausesUnder, State.causesUnder, State.tripInPresentUnder, State.overloadPresent,
    State.supplyLost, hsafety, htrip, hstate]

/-- A wrap that grants the permit: the gaps of the owned pairs, one more ordinal and its notice. -/
theorem State.autoResume_grants (h : s.trip.config.autoChannel = some k ∧ s.trip.permit = .tripped ∧ s.enabledCauses = 0#32) :
    s.autoResume k = { s with
        port := (s.autoResume k).port, out := (s.autoResume k).out, matrix := (s.autoResume k).matrix
        trip := { s.trip with permit := .permitted } }
      ∧ s.onlyNotifies (s.autoResume k) ∧ s.onlyGaps (s.autoResume k) true
      ∧ (s.autoResume k).out.ordinal = s.out.ordinal + 1#16 := by
  rw [State.autoResume, if_pos h]
  exact s.grant_cases (some k) (by rw [h.2.1]; decide)

/-! ### A wrap (R90) -/

/-- The channel after a wrap: a pending commit applied, the cycle index increased, V loaded and the marks armed anew. -/
def Channel.wrapped (c : Channel) (f : FrontEnd) : Channel :=
  let set := if c.commitPending then c.staged else c.active
  { (if c.commitPending then c.withStagedActive f else c) with
    cycleIndex := c.cycleIndex + 1#16
    value := if set.mode.counting && set.direction == .down then 0#1 ++ set.final else 0#32
    arming := if c.state = .running then set.armAll else Arming.disarmed set.order
    stallLeft :=
      if c.commitPending = false ∨ c.state ≠ .running then c.stallLeft
      else if f.gateLevel set.gate = false ∨ set.stall = 0#8 then none
      else if c.gateOpen = false ∨ set.stall ≠ c.active.stall then some (set.stall.toNat * tenMilliseconds)
      else c.stallLeft }

theorem Channel.reload_pastBoundary (c : Channel) (f : FrontEnd) (a : Arming) :
    ({ ({ c with cycleIndex := c.cycleIndex + 1#16 } : Channel).pastBoundary f with arming := a } : Channel).reloadAtWrap =
      c.wrapped f := by
  unfold Channel.reloadAtWrap Channel.wrapped Channel.pastBoundary ChannelConfig.loadValue
  cases hpending : c.commitPending
  · simp [hpending, final_setWidth]
  · by_cases hrun : c.state = .running <;>
      simp [final_setWidth, Channel.withStagedActive, Channel.stallAfterCopy, hrun]

/-- From s to t channel k has wrapped and, on a condition, the permit has been granted. -/
structure State.Wraps (k : Fin 6) (resumes : Prop) [Decidable resumes] (s t : State) : Prop where
  fields : t = { s with
    port := t.port, out := t.out, inputs := t.inputs, channels := t.channels, matrix := t.matrix
    trip := { s.trip with permit := if resumes then .permitted else s.trip.permit } }
  notifies : s.onlyNotifies t
  restarts : s.onlyRestarts t
  gaps : s.onlyGaps t (decide resumes)
  ordinal : t.out.ordinal = s.out.ordinal + (if resumes then 2#16 else 1#16)
  others : ∀ i : Fin 6, i ≠ k → t.chan i = s.chan i
  becomes : t.chan k = (s.chan k).wrapped s.inputs

/-- The wrap as far as its CYCLE_END notice (R90, R103). -/
def State.wrapLoads (s : State) (k : Fin 6) : State :=
  (((s.nextCycle k).nextOrdinal.pendingCopy k).modChan k Channel.reloadAtWrap).offerIf (s.chan k).active.notifyCycles
    (cycleEndNotice k ((s.chan k).cycleIndex + 1#16) false s.out.ordinal)

theorem State.wrap_eq (s : State) (k : Fin 6) : (s.nextCycle k).wrap k = (s.wrapLoads k).autoResume k := by
  rw [State.wrap, State.nextCycle, s.chan_modChan_same]; rfl

/-- What a wrap leaves before it may grant the permit. -/
theorem State.wrapLoads_cases (s : State) (k : Fin 6) :
    s.wrapLoads k = { s with
        port := (s.wrapLoads k).port, out := (s.wrapLoads k).out, inputs := (s.wrapLoads k).inputs
        channels := (s.wrapLoads k).channels }
      ∧ s.onlyNotifies (s.wrapLoads k) ∧ s.onlyRestarts (s.wrapLoads k)
      ∧ (s.wrapLoads k).out.ordinal = s.out.ordinal + 1#16
      ∧ (∀ i : Fin 6, i ≠ k → (s.wrapLoads k).chan i = s.chan i)
      ∧ (s.wrapLoads k).chan k = (s.chan k).wrapped s.inputs := by
  unfold State.wrapLoads
  generalize hu : (s.nextCycle k).nextOrdinal = u
  have hchan : u.chan k = { s.chan k with cycleIndex := (s.chan k).cycleIndex + 1#16 } := by
    rw [← hu, State.nextOrdinal_chan, State.nextCycle, State.chan_modChan_same]
  have hothers : ∀ i : Fin 6, i ≠ k → u.chan i = s.chan i := fun i hi => by
    rw [← hu, State.nextOrdinal_chan, State.nextCycle, State.chan_modChan_other _ hi]
  have hfields : u = { s with out := u.out, channels := u.channels } := by rw [← hu]; rfl
  have hordinal : u.out.ordinal = s.out.ordinal + 1#16 := by rw [← hu]; rfl
  have hnotifies : s.onlyNotifies u := by rw [← hu]; exact State.onlyNotifies_of_eq rfl rfl rfl
  have hinputs : u.inputs = s.inputs := by rw [hfields]
  obtain ⟨⟨a, hcopied⟩, hrestarts, hcopyfields⟩ := u.pendingCopy_cases k
  have hcopyframe := u.pendingCopy_frame k
  generalize u.pendingCopy k = v at hcopied hrestarts hcopyfields hcopyframe
  have htells : (v.modChan k Channel.reloadAtWrap).Tells ((v.modChan k Channel.reloadAtWrap).offerIf
      (s.chan k).active.notifyCycles (cycleEndNotice k ((s.chan k).cycleIndex + 1#16) false s.out.ordinal)) 0#16 :=
    State.Tells.offerIf ⟨rfl, State.onlyNotifies_refl _, (BitVec.add_zero _).symm⟩ _ _
  generalize (v.modChan k Channel.reloadAtWrap).offerIf _ _ = w at htells
  have hwchan : ∀ i : Fin 6, w.chan i = (v.modChan k Channel.reloadAtWrap).chan i := fun i => by rw [htells.fields]; rfl
  refine ⟨?_, ?_, ?_, ?_, fun i hi => ?_, ?_⟩
  · rw [htells.fields, State.modChan, State.setChan, hcopyfields, hfields]; rfl
  · exact State.onlyNotifies_trans (State.onlyNotifies_trans hnotifies hcopyframe.notifies)
      (State.onlyNotifies_trans (State.onlyNotifies_of_eq rfl rfl rfl) htells.notifies)
  · refine State.onlyRestarts_congr hrestarts (by rw [hinputs]) (fun p => ?_) (fun i => ?_) (by rw [htells.fields]; rfl) fun i => ?_
    · rw [State.countPin, State.countPin, hinputs]
    · by_cases hi : i = k
      · rw [hi, hchan]
      · rw [hothers i hi]
    · rw [hwchan, State.chan_modChan]
      split
      next hi => rw [hi]; rfl
      next => rfl
  · rw [htells.ordinal, BitVec.add_zero, ← hordinal, State.modChan_out, hcopyfields]
  · rw [hwchan, State.chan_modChan_other _ hi, hcopyframe.others i hi, hothers i hi]
  · rw [hwchan, State.chan_modChan_same, hcopied, hchan, hinputs, Channel.reload_pastBoundary]

theorem Channel.wrapped_state (c : Channel) (f : FrontEnd) : (c.wrapped f).state = c.state := by
  unfold Channel.wrapped
  cases c.commitPending <;> rfl

/-- A wrap (R90), with the grant of R169 on its condition. -/
theorem State.wrap_cases (s : State) (k : Fin 6) {resumes : Prop} [Decidable resumes]
    (h : resumes ↔ s.trip.config.autoChannel = some k ∧ s.trip.permit = .tripped ∧ s.enabledCauses = 0#32) :
    s.Wraps k resumes ((s.nextCycle k).wrap k) := by
  rw [State.wrap_eq]
  obtain ⟨hfields, hnotifies, hrestarts, hordinal, hothers, hchan⟩ := s.wrapLoads_cases k
  generalize s.wrapLoads k = w at *
  have htrip : w.trip = s.trip := by rw [hfields]
  have hmatrix : w.matrix = s.matrix := by rw [hfields]
  have hcauses : w.enabledCauses = s.enabledCauses := by
    refine State.enabledCauses_congr (by rw [hfields]) htrip fun i => ?_
    by_cases hi : i = k
    · rw [hi, hchan, Channel.wrapped_state]
    · rw [hothers i hi]
  by_cases hr : resumes
  · obtain ⟨hgrant, hnotice, hgaps, hcount⟩ := State.autoResume_grants (s := w) (k := k) (by rw [htrip, hcauses]; exact h.mp hr)
    generalize w.autoResume k = t at *
    refine ⟨by rw [hgrant, hfields, if_pos hr], State.onlyNotifies_trans hnotifies hnotice, ?_, ?_, ?_, fun i hi => ?_, ?_⟩
    · exact State.onlyRestarts_congr hrestarts rfl (fun _ => rfl) (fun _ => rfl) (by rw [hgrant]) fun i => by rw [hgrant]; rfl
    · obtain ⟨hlines, hshut, hpairs⟩ := hgaps
      rw [decide_eq_true hr]
      have hline : ∀ n, w.line n = s.line n := fun n => by rw [hfields]; rfl
      have hpair : ∀ j, w.pair j = s.pair j := fun j => by rw [hfields]; rfl
      have hown := State.ownedPair_congr (s := s) (t := w) (fun n => by rw [hline]) fun j => by rw [hpair]
      exact ⟨fun n => (hlines n).trans (hline n), by rw [hshut, hmatrix], fun j => by rw [hpairs, hown, hpair]⟩
    · rw [hcount, hordinal, if_pos hr, BitVec.add_assoc]; rfl
    · rw [← hothers i hi, hgrant]; rfl
    · rw [← hchan, hgrant]; rfl
  · have hidle : w.autoResume k = w := if_neg (by rw [htrip, hcauses]; exact mt h.mpr hr)
    rw [hidle]
    refine ⟨?_, hnotifies, hrestarts, ?_, by rw [hordinal, if_neg hr], hothers, hchan⟩
    · rw [if_neg hr]
      exact hfields.trans (by rw [← hmatrix, ← htrip])
    · rw [decide_eq_false hr]
      exact ⟨fun n => by rw [hfields]; rfl, by rw [hmatrix], fun j => by rw [hfields]; rfl⟩

/-! ### Cycle ends (R75, R89) -/

theorem State.cycleEnd_eq (s : State) (k : Fin 6) : s.cycleEnd k =
    if (s.chan k).active.repeats ≠ 0#16 ∧ (s.chan k).active.repeats.toNat ≤ (s.chan k).cycleIndex.toNat + 1 then
      (s.nextCycle k).finalCycleEnd k
    else (s.nextCycle k).wrap k := by
  rw [State.cycleEnd, Channel.lastCycle]
  exact if_congr decide_eq_true_iff rfl rfl

end Sys2Proof.Machine
end

section
/-! One accepted rise of a TALLY channel: no other channel steps, and V moves by one (R38, R41, R85, R87). -/

namespace Sys2Proof.Machine

variable {s t u v : State} {k : Fin 6} {before after : FrontEnd}

/-! ### An instant in which the pins of one channel alone change -/

/-- A channel whose pins have not changed takes no step and counts no phase error. -/
theorem State.takeSteps_still (hCA : after.count[pinCA k].filtered = before.count[pinCA k].filtered)
    (hCB : after.count[pinCB k].filtered = before.count[pinCB k].filtered)
    (hspan : (s.chan k).active.mode = .span →
      after.count[pinCA (partner k)].filtered = before.count[pinCA (partner k)].filtered) :
    s.takeSteps before after k = s := by
  have nothing : s.stepsOf before after k = [] ∧ s.phaseErrorOf before after k = false := by
    by_cases hsilent : (s.chan k).active.mode = .off ∨ (s.chan k).state = .lent
    · exact State.steps_silent hsilent
    · obtain ⟨hoff, hlent⟩ := not_or.mp hsilent
      obtain ⟨hsteps, herror⟩ := decode_unchanged (s.chan k).active before.count[pinCA k].filtered before.count[pinCB k].filtered
      rw [State.phaseError_decode hlent hoff, hCA, hCB]
      refine ⟨?_, herror⟩
      by_cases hmode : (s.chan k).active.mode = .span
      · have still : ∀ x : Bool, countedEdge (s.chan k).active.edge x x = false := fun x => by
          cases (s.chan k).active.edge <;> cases x <;> rfl
        rw [State.steps_span hlent hmode, hCA, hspan hmode, still, still]
        rfl
      · rw [State.steps_decode hlent hoff hmode, hCA, hCB, hsteps]
  rw [State.takeSteps_eq, nothing.1, nothing.2]
  rfl

/-- Channels that take no step as long as they stay as they are leave the state. -/
theorem State.foldl_takeSteps_still (l : List (Fin 6)) (h : ∀ i ∈ l, v.takeSteps before after i = v) :
    l.foldl (State.takeSteps before after) v = v := by
  induction l with
  | nil => rfl
  | cons i l ih =>
    rw [List.foldl_cons, h i List.mem_cons_self]
    exact ih fun j hj => h j (List.mem_cons_of_mem _ hj)

/-- Where one channel alone can take a step, the instant is that channel's steps. -/
theorem State.foldl_takeSteps_one (s : State)
    (h : ∀ i : Fin 6, i ≠ k → ∀ v : State, v.chan i = s.chan i → v.takeSteps before after i = v) :
    channelNumbers.foldl (State.takeSteps before after) s = s.takeSteps before after k := by
  obtain ⟨l, l', hl⟩ := List.append_of_mem (mem_channelNumbers k)
  have hnodup : channelNumbers.Nodup := by decide
  rw [hl, List.nodup_middle, List.nodup_cons, List.mem_append, not_or] at hnodup
  obtain ⟨⟨hbefore, hafter⟩, -⟩ := hnodup
  have hne : ∀ i ∈ l, i ≠ k := fun i hi hx => hbefore (hx ▸ hi)
  have hne' : ∀ i ∈ l', i ≠ k := fun i hi hx => hafter (hx ▸ hi)
  rw [hl, List.foldl_append, State.foldl_takeSteps_still l fun i hi => h i (hne i hi) s rfl, List.foldl_cons]
  exact State.foldl_takeSteps_still l' fun i hi => h i (hne' i hi) _ ((s.takeSteps_frame before after k).others i (hne' i hi))

/-! ### The rise of CAk (R38, R41) -/

/-- The front end after the accepted rise of CAk. -/
def State.riseOf (s : State) (k : Fin 6) : FrontEnd :=
  { s.inputs with count := s.inputs.count.set (pinCA k) (s.countPin (pinCA k)).flipped }

theorem State.riseOf_count (s : State) (k : Fin 6) (p : Fin 12) :
    (s.riseOf k).count[p] = if p = pinCA k then (s.countPin (pinCA k)).flipped else s.inputs.count[p] := by
  by_cases h : p = pinCA k
  · rw [if_pos h, h]; exact Vector.getElem_set_self (pinCA k).isLt
  · rw [if_neg h]; exact Vector.getElem_set_ne (pinCA k).isLt p.isLt fun hx => h (Fin.ext hx.symm)

theorem partner_partner (k : Fin 6) : partner (partner k) = k := by revert k; decide

theorem channelOfPin_pinCA (k : Fin 6) : channelOfPin (pinCA k) = k := by revert k; decide

theorem pinCA_injective {i k : Fin 6} (h : pinCA i = pinCA k) : i = k := by revert i k; decide

theorem pinCB_ne_pinCA (i k : Fin 6) : pinCB i ≠ pinCA k := by revert i k; decide

/-- CAk alone is named: its candidate is accepted, under the filter of channel k. -/
theorem State.acceptCounts_rise (hpartner : (s.chan (partner k)).active.mode ≠ .span)
    (hrestarted : s.inputs.restarted.getLsbD (2 * k.val) = false)
    (hheld : (s.countPin (pinCA k)).heldFor (countFilterTime (s.chan k).active.countFilter)) :
    s.acceptCounts (1#12 <<< (2 * k.val)) = s.riseOf k := by
  have hdue : s.countDue (pinCA k) = true := by
    rw [State.countDue_iff, State.filterChannel_eq, channelOfPin_pinCA, if_neg fun hx => hpartner hx.2]
    exact ⟨hrestarted, hheld⟩
  have named : ∀ (k : Fin 6) (p : Fin 12), (1#12 <<< (2 * k.val)).getLsbD p.val = true ↔ p = pinCA k := by decide
  have hcount : ∀ p : Fin 12, (s.acceptCounts (1#12 <<< (2 * k.val))).count[p] = (s.riseOf k).count[p] := fun p => by
    rw [s.acceptCounts_count, s.riseOf_count]
    by_cases hp : p = pinCA k
    · subst hp; rw [if_pos ⟨(named k _).mpr rfl, hdue⟩, if_pos rfl]
    · rw [if_neg fun hx => hp ((named k p).mp hx.1), if_neg hp]; rfl
  show (⟨(s.acceptCounts (1#12 <<< (2 * k.val))).count, s.inputs.din, s.inputs.restarted⟩ : FrontEnd) = _
  rw [show (s.acceptCounts (1#12 <<< (2 * k.val))).count = (s.riseOf k).count from Vector.ext fun i hi => hcount ⟨i, hi⟩]
  rfl

/-- The rise is one forward step of channel k, and of no other channel. -/
theorem State.exec_rise (hmode : (s.chan k).active.mode = .tally) (hdecode : (s.chan k).active.decode = .step)
    (hedge : (s.chan k).active.edge = .rise) (hpartner : (s.chan (partner k)).active.mode ≠ .span)
    (hlent : (s.chan k).state ≠ .lent) (hlow : (s.countPin (pinCA k)).filtered = false)
    (hrestarted : s.inputs.restarted.getLsbD (2 * k.val) = false)
    (hheld : (s.countPin (pinCA k)).heldFor (countFilterTime (s.chan k).active.countFilter)) :
    exec (.countFilterAccept (1#12 <<< (2 * k.val))) s =
      .next (State.takeStep k (s.chan k).gateOpen (s.withInputs (s.riseOf k)) true) := by
  show execCountFilterAccept _ s = _
  rw [execCountFilterAccept, State.acceptCounts_rise hpartner hrestarted hheld]
  have unmoved : ∀ p : Fin 12, p ≠ pinCA k → (s.riseOf k).count[p].filtered = s.inputs.count[p].filtered := fun p hp => by
    rw [s.riseOf_count k p, if_neg hp]
  have hrises : (s.riseOf k).count[pinCA k].filtered = true := by
    rw [s.riseOf_count k, if_pos rfl, FilteredInput.flipped, hlow]; rfl
  have hwas : s.inputs.count[pinCA k].filtered = false := hlow
  have hedges : countedEdge (s.chan k).active.edge s.inputs.count[pinCA k].filtered (s.riseOf k).count[pinCA k].filtered = true := by
    rw [hedge, hrises, hwas]; rfl
  rw [State.foldl_takeSteps_one (k := k) (s.withInputs (s.riseOf k)) fun i hi v hv => ?_]
  · have hoff : (s.chan k).active.mode ≠ .off := by rw [hmode]; decide
    have hspan : (s.chan k).active.mode ≠ .span := by rw [hmode]; decide
    have hsteps := State.steps_decode (s := s.withInputs (s.riseOf k)) (before := s.inputs) (after := s.riseOf k) hlent hoff hspan
    have herror := State.phaseError_decode (s := s.withInputs (s.riseOf k)) (before := s.inputs) (after := s.riseOf k) hlent hoff
    rw [State.withInputs_chan] at hsteps herror
    rw [decodeSteps, hdecode] at hsteps
    rw [decodePhaseError, hdecode] at herror
    simp only [hedges, if_true] at hsteps
    rw [State.takeSteps_eq, hsteps, herror]
    rfl
  · refine State.takeSteps_still (unmoved _ fun hx => hi (pinCA_injective hx)) (unmoved _ (pinCB_ne_pinCA i k)) fun hmode' =>
      unmoved _ fun hx => ?_
    rw [hv, State.withInputs_chan, ← partner_partner i, pinCA_injective hx] at hmode'
    exact hpartner hmode'

/-! ### The step of a TALLY channel (R85, R87) -/

theorem Channel.stepped_true (c : Channel) :
    c.stepped true = if c.active.direction = .up then c.value.toInt + 1 else c.value.toInt - 1 := by
  unfold Channel.stepped
  cases c.active.direction <;> rfl

theorem Arming.disarmed_bits (o : MarkOrder) : (Arming.disarmed o).bits = 0#8 := by cases o <;> rfl

/-- A completion leaves V, and nothing pending, running or armed (R74, R87). -/
theorem Channel.completed_cases (c : Channel) (f : FrontEnd) (n : BitVec 16) :
    (c.completed f n).value = c.value ∧ (c.completed f n).state = .complete ∧ (c.completed f n).stallLeft = none
      ∧ (c.completed f n).commitPending = false ∧ (c.completed f n).arming.bits = 0#8 := by
  unfold Channel.completed
  cases hpending : c.commitPending
  · exact ⟨rfl, rfl, rfl, hpending, Arming.disarmed_bits _⟩
  · exact ⟨rfl, rfl, rfl, rfl, Arming.disarmed_bits _⟩

/-- From s to t a step has moved V of channel k to next, at progress p: the run goes on, or at the final value completes. -/
structure State.Tallies (k : Fin 6) (next p : Int) (s t : State) : Prop where
  fields : t = { s with port := t.port, out := t.out, inputs := t.inputs, channels := t.channels, matrix := t.matrix }
  notifies : s.onlyNotifies t
  value : (t.chan k).value.toInt = next
  others : ∀ i : Fin 6, i ≠ k → t.chan i = s.chan i
  short : p ≠ ((s.chan k).active.final.toNat : Int) → (t.chan k).state = (s.chan k).state
  final : p = ((s.chan k).active.final.toNat : Int) → (t.chan k).state = .complete ∧ (t.chan k).stallLeft = none
    ∧ (t.chan k).commitPending = false ∧ (t.chan k).arming.bits = 0#8

/-- Marks alone fire between the move of V and the completion at the final value. -/
theorem State.tallies_of_fired {next p : Int} {marked : State} (hrange : -(2 ^ 31) ≤ next ∧ next < 2 ^ 31)
    (hfired : (s.setChan k ((s.chan k).movedTo next)).Fired k marked) :
    s.Tallies k next p (if p ≠ ((s.chan k).active.final.toNat : Int) then marked else marked.completeRun k) := by
  have hvalue : (marked.chan k).value.toInt = next := by
    rw [hfired.chan, State.chan_setChan_same]
    exact BitVec.toInt_ofInt_eq_self (by decide) hrange.1 hrange.2
  have hstate : (marked.chan k).state = (s.chan k).state := by
    rw [hfired.chan, State.chan_setChan_same]; rfl
  have hothers : ∀ i : Fin 6, i ≠ k → marked.chan i = s.chan i := fun i hi =>
    (hfired.frame.others i hi).trans (s.chan_setChan_other hi _)
  have hfields : marked = { s with
      port := marked.port, out := marked.out, inputs := marked.inputs, channels := marked.channels, matrix := marked.matrix } := by
    have hframe := hfired.frame.fields
    rw [hfired.trip, hfired.ledger] at hframe
    exact hframe
  have hnotifies : s.onlyNotifies marked := hfired.frame.notifies
  split
  next hshort => exact ⟨hfields, hnotifies, hvalue, hothers, fun _ => hstate, fun hfinal => absurd hfinal hshort⟩
  next hfinal =>
    have hcompletes := marked.completeRun_cases k
    generalize marked.completeRun k = t at *
    obtain ⟨hkept, hdone⟩ := (marked.chan k).completed_cases marked.inputs (marked.chan k).cycleIndex
    rw [← hcompletes.becomes] at hkept hdone
    exact ⟨by rw [hcompletes.fields, hfields], State.onlyNotifies_trans hnotifies hcompletes.notifies, by rw [hkept, hvalue],
      fun i hi => (hcompletes.others i hi).trans (hothers i hi), fun hshort => absurd hshort hfinal, fun _ => hdone⟩

/-- An applied forward step of a TALLY channel within the range of V; where no mark is reached it moves V alone. -/
theorem State.takeStep_tally {gate : Bool} {next p : Int} (happlies : s.appliesStep k gate = true)
    (hmode : (s.chan k).active.mode = .tally) (hresync : (s.chan k).resyncPending = false)
    (hnext : (s.chan k).stepped true = next) (hrange : -(2 ^ 31) ≤ next ∧ next < 2 ^ 31)
    (hp : (if (s.chan k).active.direction = .up then next else ((s.chan k).active.final.toNat : Int) - next) = p) :
    s.Tallies k next p (State.takeStep k gate s true)
      ∧ ((∀ x ∈ (s.chan k).active.marks, (s.chan k).active.position x ≠ p) → p ≠ ((s.chan k).active.final.toNat : Int) →
          State.takeStep k gate s true = s.setChan k ((s.chan k).movedTo next)) := by
  generalize hmoved : s.setChan k ((s.chan k).movedTo next) = moved
  generalize hmarked : (if (s.chan k).state = .running then moved.fireMarks k p else moved) = marked
  have hchan : moved.chan k = (s.chan k).movedTo next := by rw [← hmoved, State.chan_setChan_same]
  have hfired : moved.Fired k marked := by
    rw [← hmarked]
    split
    · exact State.Fired.fireMarks moved k p
    · exact .refl k moved
  have hstep : State.takeStep k gate s true =
      if p ≠ ((s.chan k).active.final.toNat : Int) then marked else marked.completeRun k := by
    rw [State.takeStep_counting happlies (.inl hmode), State.countStep_moves hresync hnext ((inRange_iff next).mpr hrange),
      if_pos rfl, ChannelConfig.progress_counting (.inl hmode) hrange, hp, hmoved, State.afterForwardStep_eq, hchan, ← hmarked]
    have hloop : ¬((s.chan k).movedTo next).active.mode = .loop := by
      show ¬(s.chan k).active.mode = .loop
      rw [hmode]; decide
    simp only [if_neg hloop]
    rfl
  rw [← hmoved] at hfired
  rw [hstep]
  refine ⟨State.tallies_of_fired hrange hfired, fun hunreached hshort => ?_⟩
  rw [if_pos hshort, ← hmarked, State.fireMarks_unreached (by rw [hchan]; exact hunreached), ite_self]

end Sys2Proof.Machine
end

section
/-! Settles O50 from the rules of the parts above. -/

namespace Sys2Proof.Machine

/-- Settles O50: the tally clause from the rise of one pin, each other clause from the rules of its part. -/
theorem countedEdgeMovesTally : Obligations.CountedEdgeMovesTally := by
  refine ⟨?tally, by decide, ?accepts, fun _ _ _ _ => rfl, ?modes, ?decodes, ?step, ?marks, ?ends⟩
  case tally =>
    intro s k hmode hdecode hedge hpartner hlent hlow hrestarted hheld c inputs applies next distance
    have hframe := State.takeStep_frame k c.gateOpen (s.withInputs inputs) true
    have happlies : (s.withInputs inputs).appliesStep k c.gateOpen = true ↔ applies :=
      (s.withInputs inputs).appliesStep_iff k c.gateOpen
    refine ⟨_, State.exec_rise hmode hdecode hedge hpartner hlent hlow hrestarted hheld, hframe.din,
      fun p => (hframe.levels p).2, fun hnot => State.takeStep_ignored (mt happlies.mp hnot) true,
      fun happ hresync hlo hhi => ?_⟩
    obtain ⟨htallies, hunmarked⟩ := State.takeStep_tally (s := s.withInputs inputs) (p := distance) (happlies.mpr happ) hmode
      hresync (Channel.stepped_true c) ⟨hlo, hhi⟩ rfl
    exact ⟨htallies.fields, htallies.notifies, htallies.value, htallies.others, htallies.short, htallies.final, hunmarked⟩
  case accepts =>
    intro s pins due
    refine ⟨s.acceptCounts pins, rfl, rfl, fun p => ?_⟩
    have hdue : due p ↔ pins.getLsbD p.val = true ∧ s.countDue p = true := by
      rw [State.countDue_iff, State.filterChannel_eq]
    rw [s.acceptCounts_count]
    exact ⟨fun h => if_pos (hdue.mp h), fun h => if_neg (mt hdue.mpr h)⟩
  case modes =>
    intro before after s k c edges
    have hedges : ∀ p : Fin 12, edges p = countedEdge c.edge before.count[p].filtered after.count[p].filtered := fun _ => rfl
    refine ⟨State.steps_silent, fun hlent hspan => ?_, State.steps_decode, State.phaseError_decode⟩
    rw [hedges, hedges]
    exact State.steps_span hlent hspan
  case decodes =>
    intro c a b a' b' counted forward backward error moves
    obtain ⟨hsteps, herror⟩ := transition_eq a b a' b'
    obtain ⟨hca, hrise⟩ := transition_ca a b a' b'
    have hmoves : (transition a b a' b').steps = moves := by
      simp only [hsteps, moves, forward, backward, decide_eq_true_eq]
    refine ⟨fun h => ?_, fun h => ?_, fun h => ?_, fun h => ?_, fun h => ?_, fun h => ?_⟩
    all_goals rw [decodeSteps, decodePhaseError, h]
    · exact ⟨rfl, rfl⟩
    · exact ⟨rfl, rfl⟩
    · exact ⟨rfl, rfl⟩
    · exact ⟨hmoves, herror⟩
    · rw [← hmoves]; exact ⟨hca, herror⟩
    · exact ⟨herror, hrise⟩
  case step =>
    intro s k gate forward c applies count next progress stall counting moved marked
    have happlies : s.appliesStep k gate = true ↔ applies := s.appliesStep_iff_permit k gate
    have hnext : c.stepped forward = next := c.stepped_eq forward
    refine ⟨fun hnot => State.takeStep_ignored (mt happlies.mp hnot) forward, fun happ hpace => ?_,
      fun happ hcounting hresync => ?_, fun happ hcounting hresync => ⟨fun hrange => ?_, fun hrange => ?_⟩⟩
    · rw [State.takeStep_pace (happlies.mpr happ) hpace, State.modChan, Channel.accumulate_eq]; rfl
    · rw [State.takeStep_counting (happlies.mpr happ) hcounting, State.countStep_resync hresync, State.modChan,
        Channel.resyncStep_eq, ChannelConfig.loadValue_counting hcounting]; rfl
    · rw [State.takeStep_counting (happlies.mpr happ) hcounting,
        State.countStep_overflow hresync (by rw [hnext, inRange_iff]; exact hrange)]
    · rw [State.takeStep_counting (happlies.mpr happ) hcounting, State.countStep_moves hresync hnext ((inRange_iff _).mpr hrange),
        ChannelConfig.progress_counting hcounting hrange]
      cases forward with
      | false => rfl
      | true =>
        rw [if_pos rfl, if_neg (by decide : ¬true = false), State.afterForwardStep_eq, State.chan_setChan_same]
        rfl
  case marks =>
    intro s k p hlen c arm reached
    exact ⟨fun f hf => State.fireMarks_flags hlen hf p, fun i hi => State.fireMarks_head hlen hi p, fun h => State.fireMarks_idle h p⟩
  case ends =>
    intro s k c index u isFinal set completes resumes
    have hcompletes : ∀ {t : State} {n : BitVec 16}, s.Completes k n t → completes t n := fun h =>
      ⟨h.fields, h.notifies, h.restarts, h.ordinal, h.policy.shut, h.others, h.becomes, h.policy.lines, h.policy.pairs⟩
    refine ⟨hcompletes (s.completeRun_cases k), fun hfinal => ?_, fun hmore => ?_⟩
    · rw [State.cycleEnd_eq, if_pos hfinal]
      exact ⟨rfl, hcompletes (s.finalCycleEnd_cases k)⟩
    · rw [State.cycleEnd_eq, if_neg hmore]
      have hwraps : s.Wraps k resumes ((s.nextCycle k).wrap k) := s.wrap_cases k Iff.rfl
      exact ⟨rfl, _, rfl, hwraps.fields, hwraps.notifies, hwraps.restarts, hwraps.gaps, hwraps.ordinal, hwraps.others, hwraps.becomes⟩

end Sys2Proof.Machine
end

section
/-! A stall expiry, and an overflow, fault their channel (R97, R98, R99, R142, R162 to R164, R180). -/

namespace Sys2Proof.Machine

variable {s t u : State} {k : Fin 6}

/-! ### The run that a fault ends (R99, R142) -/

/-- The channel as its fault leaves it, a pending commit still to be applied (R99). -/
def Channel.faulted (c : Channel) (fault : ChannelFault) : Channel :=
  { c with
    state := .faulted, faultedBy := some fault, arming := Arming.disarmed c.active.order, stallLeft := none
    resyncPending := false, windowLeft := none }

/-- The state in which channel k has faulted, its occurrence still to be taken. -/
def State.faultRun (s : State) (k : Fin 6) (fault : ChannelFault) : State :=
  (s.endRun k).modChan k fun c => { c with state := .faulted, faultedBy := some fault }

theorem State.channelFault_eq (s : State) (k : Fin 6) (fault : ChannelFault) : s.channelFault k fault =
    (((s.faultRun k fault).faultOccurrence (.channel k) fault.kind true).handFault k (s.chan k).active.faultTrips).pendingCopy k :=
  rfl

theorem State.faultRun_cases (s : State) (k : Fin 6) (fault : ChannelFault) :
    s.faultRun k fault = { s with channels := (s.faultRun k fault).channels, matrix := (s.faultRun k fault).matrix }
      ∧ (s.faultRun k fault).chan k = (s.chan k).faulted fault
      ∧ (∀ i : Fin 6, i ≠ k → (s.faultRun k fault).chan i = s.chan i)
      ∧ s.onlyReleases (s.faultRun k fault) (· == k) := by
  have hreleases := (s.releaseLines_cases k).1
  refine ⟨?_, ?_, fun i hi => ?_, State.onlyReleases_modChan (State.onlyReleases_modChan (s.releaseLines_onlyReleases k) k _) k _⟩
  · unfold State.faultRun State.endRun
    generalize s.releaseLines k = v at hreleases
    rw [hreleases]; rfl
  · rw [State.faultRun, State.chan_modChan_same, State.endRun_chan]; rfl
  · rw [State.faultRun, State.chan_modChan_other _ hi, (s.endRun_frame k).others i hi]

/-! ### The fault that is handed over (R99, R162, R163) -/

theorem State.setHanded_getElem (s : State) (k i : Fin 6) (b : Bool) :
    (s.setHanded k b).trip.handed[i] = if i = k then b else s.trip.handed[i] := by
  simp only [State.setHanded, State.withTrip_trip, Fin.getElem_fin, Vector.getElem_set]
  by_cases h : i = k
  · simp [h]
  · simp [h, show ¬(k.val = i.val) from fun e => h (Fin.ext e.symm)]

/-- Everything that the handing over of a fault can do: the handed flag, and the withdrawal of a PERMITTED permit. -/
theorem State.handFault_cases (s : State) (k : Fin 6) (handed : Bool) :
    let t := s.handFault k handed
    let trips := handed && (s.trip.permit == .permitted)
    t = { s with port := t.port, out := t.out, matrix := t.matrix, trip := t.trip }
      ∧ s.onlyNotifies t ∧ s.onlyGaps t trips ∧ t.out.ordinal = s.out.ordinal + (if trips then 1#16 else 0#16)
      ∧ (∀ i : Fin 6, t.trip.handed[i] = (s.trip.handed[i] || (decide (i = k) && handed)))
      ∧ t.trip = { s.trip with
          handed := t.trip.handed
          permit := if trips then .tripped else s.trip.permit
          last := if trips then some ⟨.channelFault k, s.out.ordinal⟩ else s.trip.last } := by
  intro t trips
  have keeps : s.onlyGaps s false := ⟨fun _ => rfl, rfl, fun _ => rfl⟩
  cases hhanded : handed with
  | false =>
    have ht : t = s := by simp only [t, hhanded, State.handFault, Bool.false_eq_true, if_false]
    have htrips : trips = false := by simp only [trips, hhanded, Bool.false_and]
    rw [ht, htrips]
    exact ⟨rfl, s.onlyNotifies_refl, keeps, by simp, by simp, rfl⟩
  | true =>
    have hflags : ∀ i : Fin 6, (s.setHanded k true).trip.handed[i] = (s.trip.handed[i] || (decide (i = k) && true)) := fun i => by
      rw [State.setHanded_getElem]
      by_cases hi : i = k <;> simp [hi]
    have ht : t = (s.setHanded k true).withdrawIf true (.channelFault k) := by simp only [t, hhanded, State.handFault, if_true]
    by_cases hp : s.trip.permit = .permitted
    · have htrips : trips = true := by simp [trips, hhanded, hp]
      have hw : t = (s.setHanded k true).withdraw (.channelFault k) := ht.trans (if_pos ⟨rfl, hp⟩)
      obtain ⟨hfields, hnotifies, hgaps, hordinal⟩ := (s.setHanded k true).withdraw_cases (.channelFault k) hp
      rw [← hw] at hfields hnotifies hgaps hordinal
      have htrip : t.trip = { (s.setHanded k true).trip with
        permit := .tripped, last := some ⟨.channelFault k, (s.setHanded k true).out.ordinal⟩ } := by rw [hfields]
      rw [htrips]
      refine ⟨by rw [hfields]; rfl, hnotifies, hgaps, hordinal, fun i => ?_, by rw [htrip]; rfl⟩
      rw [htrip]; exact hflags i
    · have htrips : trips = false := by simp [trips, hp]
      have hw : t = s.setHanded k true := ht.trans (if_neg fun h => hp h.2)
      rw [hw, htrips]
      exact ⟨rfl, State.onlyNotifies_of_eq rfl rfl rfl, keeps, by simp [State.setHanded], hflags, rfl⟩

/-! ### The pairs of a channel that faults (R142, R144) -/

theorem State.onlyReleases_ownedPair {named : Fin 6 → Bool} (h : s.onlyReleases t named) (j : Fin 6) :
    t.ownedPair j = s.ownedPair j := by
  obtain ⟨-, hcleared, hkept, hpairs⟩ := h
  refine State.ownedPair_congr (fun n => ?_) (fun i => ?_) j
  · by_cases hn : ∃ k : Fin 6, named k = true ∧ (s.line n).owner = .channel k
    · obtain ⟨k, hk, ho⟩ := hn
      rw [hcleared k n hk ho]; rfl
    · rw [hkept n fun k hk ho => hn ⟨k, hk, ho⟩]
  · rw [hpairs i]; split <;> rfl

/-- A release followed by the gaps of a withdrawal: a pair enters its gap for either, and once. -/
theorem State.releases_then_gaps {trips : Bool} (h : s.onlyReleases t (· == k)) (h' : t.onlyGaps u trips)
    (hpermit : trips = true → s.trip.permit = .permitted) :
    u.matrix.shut = s.matrix.shut
      ∧ (∀ n : Fin 12, u.line n = if (s.line n).owner = .channel k then (s.line n).cleared else s.line n)
      ∧ ∀ j : Fin 6, u.pair j =
        if s.trip.permit = .permitted ∧ (s.pair j).paired = true ∧ ((trips = true ∧ (s.line (evenLine j)).owner ≠ .nobody)
            ∨ (s.line (evenLine j)).owner = .channel k ∧ (s.line (evenLine j)).active = true) then
          (s.pair j).inGap
        else s.pair j := by
  have howned := State.onlyReleases_ownedPair h
  obtain ⟨hshut, hcleared, hkept, hpairs⟩ := h
  obtain ⟨hlines', hshut', hpairs'⟩ := h'
  refine ⟨hshut'.trans hshut, fun n => ?_, fun j => ?_⟩
  · rw [hlines']
    split
    next ho => exact hcleared k n (beq_self_eq_true k) ho
    next ho => exact hkept n fun i hi hoi => ho (by rw [hoi, beq_iff_eq.mp hi])
  · rw [hpairs', howned, hpairs]
    by_cases hgap : (trips && s.ownedPair j) = true
    · obtain ⟨htrips, hown⟩ := Bool.and_eq_true_iff.mp hgap
      obtain ⟨hpaired, howner⟩ := Bool.and_eq_true_iff.mp hown
      refine Eq.trans ?_ (if_pos ⟨hpermit htrips, hpaired, .inl ⟨htrips, bne_iff_ne.mp howner⟩⟩).symm
      rw [if_pos hgap]
      split <;> rfl
    · rw [if_neg hgap]
      refine if_congr ⟨?_, ?_⟩ rfl rfl
      · rintro ⟨hp, hpaired, hactive, i, hi, ho⟩
        exact ⟨hp, hpaired, .inr ⟨by rw [ho, beq_iff_eq.mp hi], hactive⟩⟩
      · rintro ⟨hp, hpaired, ⟨htrips, ho⟩ | ⟨ho, hactive⟩⟩
        · exact absurd (by rw [State.ownedPair, htrips, hpaired, bne_iff_ne.mpr ho]; rfl) hgap
        · exact ⟨hp, hpaired, hactive, k, beq_self_eq_true k, ho⟩

/-! ### O52 -/

/-- The channel after its fault and the boundary that applies a pending commit. -/
theorem Channel.faulted_settled (c : Channel) (fault : ChannelFault) (f : FrontEnd) :
    let d := (c.faulted fault).settled f
    d.state = .faulted ∧ d.faultedBy = some fault ∧ d.value = c.value ∧ d.cycleIndex = c.cycleIndex ∧ d.captures = c.captures
      ∧ d.accumulator = c.accumulator ∧ d.stallLeft = none ∧ d.windowLeft = none ∧ d.resyncPending = false
      ∧ d.arming.bits = 0#8 ∧ d.commitPending = false ∧ d.active = if c.commitPending then c.staged else c.active := by
  cases hpending : c.commitPending <;>
    simp [Channel.settled, Channel.faulted, Channel.withStagedActive, hpending, Arming.disarmed_bits]

theorem ordinal_after_trip (x : BitVec 16) (trips : Bool) :
    x + 1#16 + (if trips then 1#16 else 0#16) = x + if trips then 2#16 else 1#16 := by
  cases trips
  · simp
  · rw [BitVec.add_assoc]; rfl

/-- A channel fault in any state: the run ends, the occurrence is taken, the fault is handed over, and the boundary comes. -/
theorem State.channelFault_cases (s : State) (k : Fin 6) (fault : ChannelFault) :
    s.channelFaulted (s.channelFault k fault) k fault := by
  obtain ⟨hv, hvk, hvi, hreleases⟩ := s.faultRun_cases k fault
  have hactive : ∀ i : Fin 6, ((s.faultRun k fault).chan i).active = (s.chan i).active := fun i => by
    by_cases hi : i = k
    · rw [hi, hvk]; rfl
    · rw [hvi i hi]
  rw [State.channelFault_eq]
  generalize s.faultRun k fault = v at hv hvk hvi hreleases hactive
  obtain ⟨hw, hwnotifies, hwgaps, hwordinal, hwtrip, hrepeats, hnew⟩ :=
    v.faultOccurrence_cases (.channel k) fault.kind true .soft
  generalize v.faultOccurrence (.channel k) fault.kind true = w at hw hwnotifies hwgaps hwordinal hwtrip hrepeats hnew
  replace hwtrip : w.trip = s.trip := Eq.trans (b := v.trip) hwtrip (by rw [hv])
  rw [show v.ledger = s.ledger by rw [hv]] at hrepeats hnew
  rw [show v.out = s.out by rw [hv]] at hwordinal hnew
  obtain ⟨hx, hxnotifies, hxgaps, hxordinal, hhanded, hxtrip⟩ := w.handFault_cases k (s.chan k).active.faultTrips
  generalize w.handFault k (s.chan k).active.faultTrips = x at hx hxnotifies hxgaps hxordinal hhanded hxtrip
  rw [hwtrip] at hxgaps hxordinal hhanded hxtrip
  have hxchan : ∀ i, x.chan i = v.chan i := fun i => by rw [hx, hw]; rfl
  have hxinputs : x.inputs = s.inputs := by rw [hx, hw, hv]
  obtain ⟨hchan, hrestarts, -, hy⟩ := State.pendingCopy_idle (s := x) (k := k) (by rw [hxchan, hvk]; exact nofun)
  have hframe := x.pendingCopy_frame k
  generalize x.pendingCopy k = y at hchan hrestarts hy hframe
  have hgaps : v.onlyGaps x ((s.chan k).active.faultTrips && (s.trip.permit == .permitted)) := by
    obtain ⟨hlines, hshut, hpairs⟩ := hxgaps
    have hpair : ∀ j, w.pair j = v.pair j := fun j => (hwgaps.2.2 j).trans (by simp)
    refine ⟨fun n => (hlines n).trans (hwgaps.1 n), hshut.trans hwgaps.2.1, fun j => ?_⟩
    rw [hpairs, hpair, State.ownedPair_congr (s := v) (fun n => by rw [hwgaps.1]) fun i => by rw [hpair]]
  obtain ⟨hshut, hlines, hpairs⟩ := State.releases_then_gaps hreleases hgaps fun h => by simpa using (Bool.and_eq_true_iff.mp h).2
  have hymatrix : y.matrix = x.matrix := by rw [hy]
  have hyk : y.chan k = ((s.chan k).faulted fault).settled s.inputs := by rw [hchan, hxchan, hvk, hxinputs]
  obtain ⟨h1, h2, h3, h4, h5, h6, h7, h8, h9, h10, h11, h12⟩ := (s.chan k).faulted_settled fault s.inputs
  rw [← hyk] at h1 h2 h3 h4 h5 h6 h7 h8 h9 h10 h11 h12
  have hsv : s.onlyNotifies v := State.onlyNotifies_of_eq (by rw [hv]) (by rw [hv]) (by rw [hv])
  have hytrip : y.trip = x.trip := by rw [hy]
  have hyledger : y.ledger = w.ledger := by rw [hy, hx]
  refine ⟨by rw [hy, hx, hw, hv], ?_, fun i hi => ?_, h1, h2, h3, h4, h5, h6, h7, h8, h9, h10, h11, h12, ?_, by rw [hymatrix, hshut],
    fun n => ?_, fun j => ?_, ?_, fun i => ?_, ?_, fun h => hyledger.trans (hrepeats h), fun h => hyledger.trans (hnew h)⟩
  · exact State.onlyNotifies_trans (State.onlyNotifies_trans (State.onlyNotifies_trans hsv hwnotifies) hxnotifies) hframe.notifies
  · rw [hframe.others i hi, hxchan, hvi i hi]
  · exact State.onlyRestarts_congr hrestarts (by rw [hxinputs]) (fun p => by rw [State.countPin, State.countPin, hxinputs])
      (fun i => by rw [hxchan, hactive]) rfl fun _ => rfl
  · rw [← hlines n, State.line, State.line, hymatrix]
  · rw [← hpairs j, State.pair, State.pair, hymatrix]
  · rw [show y.out = x.out by rw [hy], hxordinal, hwordinal]
    exact ordinal_after_trip _ _
  · rw [hytrip]; exact hhanded i
  · rw [hytrip, hxtrip, hwordinal]; rfl

/-- Settles O52: a stall timer at zero that no freeze holds is due, and a channel fault is the same for both faults. -/
theorem stallExpiryFaultsChannel : Obligations.StallExpiryFaultsChannel := by
  refine ⟨fun s k hleft hfrozen => ⟨_, congrArg Host.Outcome.next (if_pos ?_), s.channelFault_cases k .stall⟩, State.channelFault_cases⟩
  rw [State.stallDue, hleft, hfrozen]; rfl

end Sys2Proof.Machine
end

section
/-! The permit and the ledger (R99, R159, R160, R178, R179): the conditions that every step keeps, the part of the state
that they depend on, and what keeps them. -/

namespace Sys2Proof.Machine

variable {s t u v : State} {k : Fin 6} {source : LedgerSource} {kind : LedgerKind}

/-! ### What the conditions depend on -/

/-- The conditions of the permit and of the ledger. -/
def State.Sound (s : State) : Prop := s.tripWf ∧ s.ledgerWf

/-- Whether a channel is FAULTED, and the fault that it remembers. -/
def Channel.trouble (c : Channel) : Bool × Option ChannelFault := (c.state == .faulted, c.faultedBy)

/-- The filtered level of a safety input, and whether it owes an assertion. -/
def SafetyInput.reading (i : SafetyInput) : Bool × Bool := (i.input.filtered, i.owed)

theorem Channel.trouble_eq {c d : Channel} (hstate : d.state = .faulted ↔ c.state = .faulted) (hfault : d.faultedBy = c.faultedBy) :
    d.trouble = c.trouble :=
  Prod.ext (Bool.eq_iff_iff.mpr (by simpa [Channel.trouble] using hstate)) hfault

theorem Channel.trouble_of_unfaulted {c d : Channel} (hc : c.state ≠ .faulted) (hd : d.state ≠ .faulted)
    (hfault : d.faultedBy = c.faultedBy) : d.trouble = c.trouble :=
  Channel.trouble_eq ⟨fun h => absurd h hd, fun h => absurd h hc⟩ hfault

theorem Channel.faulted_of_trouble {c d : Channel} (h : d.trouble = c.trouble) : d.state = .faulted ↔ c.state = .faulted := by
  have hflag : (d.state == .faulted) = (c.state == .faulted) := congrArg Prod.fst h
  rw [← beq_iff_eq, hflag, beq_iff_eq]

/-- From s to t nothing has changed that the conditions depend on, but that the permit may have been withdrawn. -/
structure State.KeepsTroubles (s t : State) : Prop where
  tripIn : t.safety.tripIn.reading = s.safety.tripIn.reading
  ovl : ∀ b : Fin 3, t.safety.ovl[b].reading = s.safety.ovl[b].reading
  supplyOk : t.safety.supplyOk.reading = s.safety.supplyOk.reading
  config : t.trip.config = s.trip.config
  hostLost : t.trip.hostLost = s.trip.hostLost
  handed : t.trip.handed = s.trip.handed
  permit : t.trip.permit = .permitted → s.trip.permit = .permitted
  records : t.ledger.records = s.ledger.records
  troubles : ∀ k : Fin 6, (t.chan k).trouble = (s.chan k).trouble

theorem State.KeepsTroubles.refl (s : State) : s.KeepsTroubles s :=
  ⟨rfl, fun _ => rfl, rfl, rfl, rfl, rfl, id, rfl, fun _ => rfl⟩

theorem State.KeepsTroubles.trans (h : s.KeepsTroubles t) (h' : t.KeepsTroubles u) : s.KeepsTroubles u where
  tripIn := h'.tripIn.trans h.tripIn
  ovl b := (h'.ovl b).trans (h.ovl b)
  supplyOk := h'.supplyOk.trans h.supplyOk
  config := h'.config.trans h.config
  hostLost := h'.hostLost.trans h.hostLost
  handed := h'.handed.trans h.handed
  permit := h.permit ∘ h'.permit
  records := h'.records.trans h.records
  troubles k := (h'.troubles k).trans (h.troubles k)

theorem State.KeepsTroubles.ite {c : Prop} [Decidable c] (ht : c → s.KeepsTroubles t) (hu : ¬c → s.KeepsTroubles u) :
    s.KeepsTroubles (if c then t else u) := by
  split
  · exact ht ‹_›
  · exact hu ‹_›

/-- A change that leaves the safety inputs, the Trip Unit, the records and the troubles of the channels. -/
theorem State.KeepsTroubles.of_eq (hsafety : t.safety = s.safety) (htrip : t.trip = s.trip)
    (hrecords : t.ledger.records = s.ledger.records) (htroubles : ∀ k : Fin 6, (t.chan k).trouble = (s.chan k).trouble) :
    s.KeepsTroubles t :=
  ⟨by rw [hsafety], fun b => by rw [hsafety], by rw [hsafety], by rw [htrip], by rw [htrip], by rw [htrip],
    by rw [htrip]; exact id, hrecords, htroubles⟩

/-- A change of channel k that leaves its trouble. -/
theorem State.KeepsTroubles.modChan (s : State) (k : Fin 6) {f : Channel → Channel}
    (h : (f (s.chan k)).trouble = (s.chan k).trouble) : s.KeepsTroubles (s.modChan k f) := by
  refine .of_eq rfl rfl rfl fun i => ?_
  rw [State.chan_modChan]
  split
  next hi => rw [hi, h]
  next => rfl

theorem State.KeepsTroubles.modChan_always (s : State) (k : Fin 6) {f : Channel → Channel} (h : ∀ c, (f c).trouble = c.trouble) :
    s.KeepsTroubles (s.modChan k f) := .modChan s k (h _)

/-- What a channel does of itself, short of faulting or leaving FAULTED. -/
theorem State.RunFrame.keepsTroubles (h : s.RunFrame k t) (hhanded : t.trip.handed = s.trip.handed)
    (hpermit : t.trip.permit = .permitted → s.trip.permit = .permitted) (hrecords : t.ledger.records = s.ledger.records)
    (htrouble : (t.chan k).trouble = (s.chan k).trouble) : s.KeepsTroubles t where
  tripIn := by rw [h.fields]
  ovl b := by rw [h.fields]
  supplyOk := by rw [h.fields]
  config := by rw [h.trip]
  hostLost := by rw [h.trip]
  handed := hhanded
  permit := hpermit
  records := hrecords
  troubles i := by
    by_cases hi : i = k
    · rw [hi, htrouble]
    · rw [h.others i hi]

/-! ### Present causes (R161, R179) -/

/-- From s to t the causes of all sources and kinds are the same, with exceptions. -/
structure State.SameCauses (except : LedgerSource → LedgerKind → Prop) (s t : State) : Prop where
  channel : ∀ (k : Fin 6) (f : ChannelFault), ¬except (.channel k) f.kind →
    ((t.chan k).faultedBy == some f) = ((s.chan k).faultedBy == some f)
  bank : ∀ b : Fin 3, ¬except (.bank b) .overload → t.overloadPresent b = s.overloadPresent b
  supply : ¬except .supply .supplyLoss → t.supplyLost = s.supplyLost
  tripIn : ¬except .tripIn .tripInput → t.tripInPresent = s.tripInPresent
  host : ¬except .host .hostLost → t.trip.hostLost = s.trip.hostLost

/-- The exception of one source and kind. -/
def only (source : LedgerSource) (kind : LedgerKind) : LedgerSource → LedgerKind → Prop := fun a b => a = source ∧ b = kind

theorem State.SameCauses.present {except : LedgerSource → LedgerKind → Prop} (h : s.SameCauses except t) {a : LedgerSource}
    {b : LedgerKind} (hab : ¬except a b) : t.causePresent a b = s.causePresent a b := by
  unfold State.causePresent
  split
  · exact h.channel _ .stall hab
  · exact h.channel _ .overflow hab
  · exact h.bank _ hab
  · exact h.supply hab
  · exact h.tripIn hab
  · exact h.host hab
  · rfl

theorem State.tripInPresentUnder_congr (h : t.safety.tripIn.reading = s.safety.tripIn.reading) (activeHigh : Bool) :
    t.tripInPresentUnder activeHigh = s.tripInPresentUnder activeHigh :=
  congrArg (fun r : Bool × Bool => (r.1 == activeHigh) && !r.2) h

theorem State.overloadPresent_congr {b : Fin 3} (h : t.safety.ovl[b].reading = s.safety.ovl[b].reading) :
    t.overloadPresent b = s.overloadPresent b :=
  congrArg (fun r : Bool × Bool => r.1 && !r.2) h

theorem State.supplyLost_congr (h : t.safety.supplyOk.reading = s.safety.supplyOk.reading) : t.supplyLost = s.supplyLost :=
  congrArg (fun r : Bool × Bool => !r.1 && !r.2) h

theorem State.SameCauses.of_channels {except : LedgerSource → LedgerKind → Prop} (hsafety : t.safety = s.safety)
    (hconfig : t.trip.config = s.trip.config) (hhost : t.trip.hostLost = s.trip.hostLost)
    (hchan : ∀ (k : Fin 6) (f : ChannelFault), ¬except (.channel k) f.kind →
      ((t.chan k).faultedBy == some f) = ((s.chan k).faultedBy == some f)) : s.SameCauses except t :=
  ⟨hchan, fun _ _ => State.overloadPresent_congr (by rw [hsafety]), fun _ => State.supplyLost_congr (by rw [hsafety]),
    fun _ => by rw [State.tripInPresent, hconfig]; exact State.tripInPresentUnder_congr (by rw [hsafety]) _, fun _ => hhost⟩

theorem State.KeepsTroubles.sameCauses (h : s.KeepsTroubles t) (except : LedgerSource → LedgerKind → Prop) :
    s.SameCauses except t where
  channel k f _ := by rw [show (t.chan k).faultedBy = (s.chan k).faultedBy from congrArg Prod.snd (h.troubles k)]
  bank b _ := State.overloadPresent_congr (h.ovl b)
  supply _ := State.supplyLost_congr h.supplyOk
  tripIn _ := by rw [State.tripInPresent, h.config]; exact State.tripInPresentUnder_congr h.tripIn _
  host _ := h.hostLost

/-! ### The enabled causes, one by one (R159, R162) -/

/-- Under a configuration no enabled cause is present. -/
structure State.Causeless (s : State) (c : TripConfig) : Prop where
  tripIn : c.tripInEnable = true → s.tripInPresentUnder c.tripInActiveHigh = false
  overload : c.overloadEnable = true → ∀ b : Fin 3, s.overloadPresent b = false
  supply : c.supplyEnable = true → s.supplyLost = false
  host : c.hostLoss = .trip → s.trip.hostLost = false
  channels : ∀ k : Fin 6, s.trip.handed[k] = true → (s.chan k).state ≠ .faulted

theorem placeFlags_zero_iff {l : List Bool} (hl : l.length ≤ 32) : placeFlags 0 l = 0#32 ↔ ∀ b ∈ l, b = false := by
  constructor
  · intro h b hb
    obtain ⟨i, hi, rfl⟩ := List.getElem_of_mem hb
    have hbit := getLsbD_placeFlags l 0 i
    rw [h] at hbit
    simpa [hi, show i < 32 by omega] using hbit.symm
  · intro h
    refine BitVec.eq_of_getLsbD_eq fun i _ => ?_
    rw [getLsbD_placeFlags]
    by_cases hi : i < l.length
    · simp [hi, h _ (List.getElem_mem hi)]
    · simp [hi]

theorem State.causesUnder_length (s : State) (c : TripConfig) (enabledOnly : Bool) : (s.causesUnder c enabledOnly).length = 12 := rfl

theorem and_eq_false_iff_imp (a b : Bool) : (a && b) = false ↔ (b = true → a = false) := by revert a b; decide

theorem State.enabledCausesUnder_eq_zero (s : State) (c : TripConfig) : s.enabledCausesUnder c = 0#32 ↔ s.Causeless c := by
  rw [State.enabledCausesUnder, placeFlags_zero_iff (by rw [State.causesUnder_length]; omega)]
  simp only [State.causesUnder, Bool.not_true, Bool.false_or, List.forall_mem_append, List.forall_mem_map, List.forall_mem_cons,
    List.not_mem_nil, false_implies, implies_true, and_true, and_eq_false_iff_imp, mem_bankNumbers, mem_channelNumbers,
    true_implies, beq_iff_eq, beq_eq_false_iff_ne]
  exact ⟨fun ⟨⟨⟨htripIn, hbank⟩, hsupply, hhost⟩, hchan⟩ => ⟨htripIn, fun h b => hbank b h, hsupply, hhost, hchan⟩,
    fun h => ⟨⟨⟨h.tripIn, fun b hb => h.overload hb b⟩, h.supply, h.host⟩, h.channels⟩⟩

theorem State.permitWf_iff (s : State) : s.permitWf ↔ (s.trip.permit = .permitted → s.Causeless s.trip.config) := by
  rw [State.permitWf, State.enabledCauses, s.enabledCausesUnder_eq_zero]

theorem State.Causeless.congr {c : TripConfig} (h : s.Causeless c) (htripIn : t.safety.tripIn.reading = s.safety.tripIn.reading)
    (hovl : ∀ b : Fin 3, t.safety.ovl[b].reading = s.safety.ovl[b].reading)
    (hsupply : t.safety.supplyOk.reading = s.safety.supplyOk.reading) (hhost : t.trip.hostLost = s.trip.hostLost)
    (hhanded : t.trip.handed = s.trip.handed) (hstate : ∀ k : Fin 6, (t.chan k).state = .faulted ↔ (s.chan k).state = .faulted) :
    t.Causeless c where
  tripIn he := (State.tripInPresentUnder_congr htripIn _).trans (h.tripIn he)
  overload he b := (State.overloadPresent_congr (hovl b)).trans (h.overload he b)
  supply he := (State.supplyLost_congr hsupply).trans (h.supply he)
  host he := hhost.trans (h.host he)
  channels k hk := by rw [hhanded] at hk; rw [Ne, hstate]; exact h.channels k hk

theorem State.Causeless.of_channels {c : TripConfig} (h : s.Causeless c) (hsafety : t.safety = s.safety)
    (hhost : t.trip.hostLost = s.trip.hostLost) (hchan : ∀ k : Fin 6, t.trip.handed[k] = true → (t.chan k).state ≠ .faulted) :
    t.Causeless c where
  tripIn he := (State.tripInPresentUnder_congr (by rw [hsafety]) _).trans (h.tripIn he)
  overload he b := (State.overloadPresent_congr (by rw [hsafety])).trans (h.overload he b)
  supply he := (State.supplyLost_congr (by rw [hsafety])).trans (h.supply he)
  host he := hhost.trans (h.host he)
  channels := hchan

/-- A channel that is not FAULTED is not handed over. -/
theorem State.tripWf.unhanded (h : s.tripWf) {k : Fin 6} (hk : (s.chan k).state ≠ .faulted) : s.trip.handed[k] = false := by
  by_contra hhanded
  exact hk ((h.1 k).2 (Bool.eq_true_of_not_eq_false hhanded))

theorem State.tripWf.unfaulted (h : s.tripWf) {k : Fin 6} (hk : (s.chan k).state ≠ .faulted) : (s.chan k).faultedBy = none := by
  rw [← Option.not_isSome_iff_eq_none, ← (h.1 k).1]
  exact hk

/-! ### The ledger (R178, R179) -/

theorem Pairwise_sameTrouble_map {l : List LedgerRecord} {g : LedgerRecord → LedgerRecord}
    (hg : ∀ r, (g r).source = r.source ∧ (g r).kind = r.kind) (h : l.Pairwise fun a b => ¬a.sameTrouble b) :
    (l.map g).Pairwise fun a b => ¬a.sameTrouble b := by
  refine List.Pairwise.map g (fun a b hab hsame => hab ?_) h
  rwa [LedgerRecord.sameTrouble, (hg a).1, (hg b).1, (hg a).2, (hg b).2] at hsame

/-- Records whose conditions alone have changed, to what the causes are now. -/
theorem State.ledgerWf.map (h : s.ledgerWf) {g : LedgerRecord → LedgerRecord} (hrecords : t.ledger.records = s.ledger.records.map g)
    (hg : ∀ r, (g r).source = r.source ∧ (g r).kind = r.kind)
    (hactive : ∀ r ∈ s.ledger.records, (g r).active = t.causePresent r.source r.kind) : t.ledgerWf := by
  obtain ⟨hlength, hpairs, -⟩ := h
  refine ⟨by rw [hrecords, List.length_map]; exact hlength, by rw [hrecords]; exact Pairwise_sameTrouble_map hg hpairs, ?_⟩
  rw [hrecords]
  intro r hr
  obtain ⟨q, hq, rfl⟩ := List.mem_map.mp hr
  rw [(hg q).1, (hg q).2]
  exact hactive q hq

/-- A subsequence of the records, the causes as they were. -/
theorem State.ledgerWf.sublist (h : s.ledgerWf) (hrecords : t.ledger.records.Sublist s.ledger.records)
    (hsame : ∀ a b, t.causePresent a b = s.causePresent a b) : t.ledgerWf := by
  obtain ⟨hlength, hpairs, hactive⟩ := h
  exact ⟨hrecords.length_le.trans hlength, hpairs.sublist hrecords, fun r hr => by rw [hsame, hactive r (hrecords.subset hr)]⟩

/-- One cause has begun, ended or stayed, and its record follows it (R165, R179). -/
theorem State.ledgerWf.setCondition {present : Bool} (h : s.ledgerWf) (hledger : v.ledger = s.ledger)
    (hsame : s.SameCauses (only source kind) v) (hpresent : v.causePresent source kind = present) :
    (v.setCondition source kind present).ledgerWf := by
  have hcause : ∀ a b, (v.setCondition source kind present).causePresent a b = v.causePresent a b := fun a b => rfl
  refine h.map (by rw [State.setCondition_eq, hledger]) (fun r => ?_) fun r hr => ?_
  · split <;> exact ⟨rfl, rfl⟩
  · rw [hcause]
    split
    next hr => rw [hr.1, hr.2, hpresent]
    next hne => rw [hsame.present hne, h.2.2 r hr]

/-- An occurrence of a cause that is present, or of one that never is, keeps the ledger true (R180). -/
theorem State.ledgerWf.occurrence {present : Bool} (h : s.ledgerWf) (hledger : v.ledger = s.ledger)
    (hsame : s.SameCauses (only source kind) v) (hpresent : v.causePresent source kind = present)
    (hstays : s.causePresent source kind = true → present = true) (hcause : ∀ a b, t.causePresent a b = v.causePresent a b)
    (hrepeats : (∃ r ∈ v.ledger.records, r.source = source ∧ r.kind = kind) →
      t.ledger = { v.ledger with records := v.ledger.records.map fun r =>
        if r.source = source ∧ r.kind = kind then
          { r with repeats := if r.repeats = 15#4 then 15#4 else r.repeats + 1#4, active := present || r.active }
        else r })
    (hnew : (∀ r ∈ v.ledger.records, ¬(r.source = source ∧ r.kind = kind)) →
      t.ledger = if v.ledger.records.length < 16 then
        { v.ledger with records := v.ledger.records ++ [⟨v.out.ordinal, source, kind, present, 0#4⟩] }
      else { v.ledger with lost := true }) : t.ledgerWf := by
  rw [hledger] at hrepeats hnew
  have hothers : ∀ a b, ¬(a = source ∧ b = kind) → t.causePresent a b = s.causePresent a b := fun a b hab => by
    rw [hcause, hsame.present hab]
  by_cases hrecord : ∃ r ∈ s.ledger.records, r.source = source ∧ r.kind = kind
  · refine h.map (by rw [hrepeats hrecord]) (fun r => ?_) fun r hr => ?_
    · split <;> exact ⟨rfl, rfl⟩
    · split
      next hsource =>
        have hactive := h.2.2 r hr
        rw [hsource.1, hsource.2] at hactive
        rw [hcause, hsource.1, hsource.2, hpresent, hactive]
        by_cases hcaused : s.causePresent source kind = true
        · rw [hcaused, hstays hcaused]; rfl
        · rw [Bool.eq_false_of_not_eq_true hcaused, Bool.or_false]
      next hne => rw [hothers _ _ hne, h.2.2 r hr]
  · have hnone : ∀ r ∈ s.ledger.records, ¬(r.source = source ∧ r.kind = kind) := fun r hr hx => hrecord ⟨r, hr, hx⟩
    have hkept : ∀ r ∈ s.ledger.records, r.active = t.causePresent r.source r.kind := fun r hr => by
      rw [hothers _ _ (hnone r hr), h.2.2 r hr]
    obtain ⟨hlength, hpairs, -⟩ := h
    replace hnew := hnew hnone
    split at hnew
    next hroom =>
      have hrecords : t.ledger.records = s.ledger.records ++ [⟨v.out.ordinal, source, kind, present, 0#4⟩] := by rw [hnew]
      refine ⟨?_, ?_, fun r hr => ?_⟩
      · rw [hrecords, List.length_append]
        exact hroom
      · rw [hrecords, List.pairwise_append]
        refine ⟨hpairs, List.pairwise_singleton _ _, fun a ha b hb => ?_⟩
        rw [List.mem_singleton] at hb
        rw [hb]
        exact hnone a ha
      · rw [hrecords, List.mem_append, List.mem_singleton] at hr
        obtain hr | rfl := hr
        · exact hkept r hr
        · rw [hcause, hpresent]
    next => rw [State.ledgerWf, hnew]; exact ⟨hlength, hpairs, hkept⟩

/-! ### What keeps the conditions -/

theorem State.owedWf.congr (hs : s.owedWf) (hovl : ∀ b : Fin 3, t.safety.ovl[b].reading = s.safety.ovl[b].reading)
    (hsupply : t.safety.supplyOk.reading = s.safety.supplyOk.reading) : t.owedWf := by
  have hkept : ∀ {i j : SafetyInput} (level : Bool), j.reading = i.reading → (i.owed = true → i.input.filtered = level) →
      j.owed = true → j.input.filtered = level := fun {i j} level hreads hi hj => by
    have hfiltered : j.input.filtered = i.input.filtered := congrArg Prod.fst hreads
    have howed : j.owed = i.owed := congrArg Prod.snd hreads
    rw [hfiltered]
    exact hi (howed.symm.trans hj)
  exact ⟨fun b => hkept true (hovl b) (hs.1 b), hkept false hsupply hs.2⟩

theorem State.KeepsTroubles.sound (h : s.KeepsTroubles t) (hs : s.Sound) : t.Sound := by
  obtain ⟨⟨hfault, hpermit, howed⟩, hledger⟩ := hs
  have hstate : ∀ k, (t.chan k).state = .faulted ↔ (s.chan k).state = .faulted := fun k => Channel.faulted_of_trouble (h.troubles k)
  refine ⟨⟨fun k => ?_, ?_, howed.congr h.ovl h.supplyOk⟩, ?_⟩
  · rw [State.faultWf, hstate, h.handed, show (t.chan k).faultedBy = (s.chan k).faultedBy from congrArg Prod.snd (h.troubles k)]
    exact hfault k
  · rw [State.permitWf_iff] at hpermit ⊢
    intro hp
    rw [h.config]
    exact (hpermit (h.permit hp)).congr h.tripIn h.ovl h.supplyOk h.hostLost h.handed hstate
  · exact hledger.sublist (by rw [h.records]) fun a b => (h.sameCauses fun _ _ => False).present id

/-- From s to t the conditions are kept. -/
def State.StaysSound (s t : State) : Prop := s.Sound → t.Sound

theorem State.StaysSound.refl (s : State) : s.StaysSound s := id

theorem State.StaysSound.trans (h : s.StaysSound t) (h' : t.StaysSound u) : s.StaysSound u := h' ∘ h

theorem State.KeepsTroubles.stays (h : s.KeepsTroubles t) : s.StaysSound t := h.sound

theorem State.StaysSound.ite {c : Prop} [Decidable c] (ht : c → s.StaysSound t) (hu : ¬c → s.StaysSound u) :
    s.StaysSound (if c then t else u) := by
  split
  · exact ht ‹_›
  · exact hu ‹_›

theorem State.StaysSound.fold {α : Type} {f : State → α → State} (hf : ∀ (s : State) (a : α), s.StaysSound (f s a)) (l : List α) :
    ∀ s : State, s.StaysSound (l.foldl f s) := by
  induction l with
  | nil => exact .refl
  | cons a l ih => exact fun s => (hf s a).trans (ih _)

/-- A cause asserts whose condition v already shows (R164): a withdrawal comes before it can be present while PERMITTED. -/
theorem State.causeAsserts_sound {present enabled : Bool} {trip : TripSource} (hs : s.Sound) (hledger : v.ledger = s.ledger)
    (hsame : s.SameCauses (only source kind) v) (hpresent : v.causePresent source kind = present)
    (hstays : s.causePresent source kind = true → present = true) (hfault : ∀ k : Fin 6, v.faultWf k) (howed : v.owedWf)
    (hpermit : enabled = false → v.permitWf) : (v.causeAsserts source kind present enabled trip).Sound := by
  have htaken := v.causeAsserts_cases source kind present enabled trip
  rw [← State.causeAsserts] at htaken
  generalize v.causeAsserts source kind present enabled trip = t at htaken
  obtain ⟨hfields, -, -, -, htrip, hrepeats, hnew⟩ := htaken
  have hsafety : t.safety = v.safety := by rw [hfields]
  have hchan : ∀ k, t.chan k = v.chan k := fun k => by rw [hfields]; rfl
  have hconfig : t.trip.config = v.trip.config ∧ t.trip.hostLost = v.trip.hostLost ∧ t.trip.handed = v.trip.handed := by
    rw [htrip]; split <;> exact ⟨rfl, rfl, rfl⟩
  obtain ⟨hconfig, hhost, hhanded⟩ := hconfig
  have hcause : v.SameCauses (fun _ _ => False) t := .of_channels hsafety hconfig hhost fun k f _ => by rw [hchan]
  refine ⟨⟨fun k => ?_, fun hp => ?_, howed.congr (by simp [hsafety]) (by rw [hsafety])⟩,
    hs.2.occurrence hledger hsame hpresent hstays (fun a b => hcause.present id) hrepeats hnew⟩
  · rw [State.faultWf, hchan, hhanded]
    exact hfault k
  · by_cases htrips : (enabled && (v.trip.permit == .permitted)) = true
    · rw [htrip, if_pos htrips] at hp
      cases hp
    · rw [if_neg htrips] at htrip
      rw [htrip] at hp
      rw [State.enabledCauses_congr hsafety htrip fun i => by rw [hchan]]
      exact hpermit (by simpa [hp] using htrips) hp

end Sys2Proof.Machine
end

section
/-! What the occurrences of causes keep of the permit and the ledger (R149, R161 to R165, R168, R170 to R173, R179, R180). -/

namespace Sys2Proof.Machine

variable {s t u v : State} {k : Fin 6} {source : LedgerSource} {kind : LedgerKind}

/-! ### Safety inputs that change (R161) -/

theorem SafetyInput.assert_reading (i : SafetyInput) :
    i.assert.reading = (if i.owed then i.input.filtered else !i.input.filtered, false) := by
  unfold SafetyInput.assert SafetyInput.reading
  cases i.owed <;> rfl

theorem vector_set_getElem {α : Type} {n : Nat} (v : Vector α n) (k i : Fin n) (x : α) :
    (v.set k x)[i] = if i = k then x else v[i] := by
  by_cases h : i = k
  · simp [h]
  · simp [h, Vector.getElem_set_ne, show ¬(k.val = i.val) from fun e => h (Fin.ext e.symm)]

/-- TRIP_IN alone has a new reading. -/
def State.withTripIn (s : State) (i : SafetyInput) : State := s.withSafety { s.safety with tripIn := i }

/-- OVLb alone has a new reading. -/
def State.withOvl (s : State) (b : Fin 3) (i : SafetyInput) : State := s.withSafety { s.safety with ovl := s.safety.ovl.set b i }

/-- SUPPLY_OK alone has a new reading. -/
def State.withSupplyOk (s : State) (i : SafetyInput) : State := s.withSafety { s.safety with supplyOk := i }

theorem State.withTripIn_sameCauses (s : State) (i : SafetyInput) : s.SameCauses (only .tripIn .tripInput) (s.withTripIn i) :=
  ⟨fun _ _ _ => rfl, fun _ _ => rfl, fun _ => rfl, fun h => absurd ⟨rfl, rfl⟩ h, fun _ => rfl⟩

theorem State.withOvl_present (s : State) (b a : Fin 3) (i : SafetyInput) :
    (s.withOvl b i).overloadPresent a = if a = b then i.assertedHigh else s.overloadPresent a := by
  unfold State.overloadPresent State.withOvl
  rw [State.withSafety_safety, vector_set_getElem]
  split <;> rfl

theorem State.withOvl_sameCauses (s : State) (b : Fin 3) (i : SafetyInput) :
    s.SameCauses (only (.bank b) .overload) (s.withOvl b i) := by
  refine ⟨fun _ _ _ => rfl, fun a ha => ?_, fun _ => rfl, fun _ => rfl, fun _ => rfl⟩
  rw [State.withOvl_present, if_neg fun h => ha ⟨by rw [h], rfl⟩]

theorem State.withSupplyOk_sameCauses (s : State) (i : SafetyInput) : s.SameCauses (only .supply .supplyLoss) (s.withSupplyOk i) :=
  ⟨fun _ _ _ => rfl, fun _ _ => rfl, fun h => absurd ⟨rfl, rfl⟩ h, fun _ => rfl, fun _ => rfl⟩

/-- A new reading of TRIP_IN that is absent or whose cause is not enabled keeps the permit safe. -/
theorem State.withTripIn_permitWf {i : SafetyInput} (hs : s.permitWf)
    (h : s.trip.config.tripInEnable = true → (s.withTripIn i).tripInPresent = false) : (s.withTripIn i).permitWf := by
  rw [State.permitWf_iff] at hs ⊢
  intro hp
  obtain ⟨-, hbank, hsupply, hhost, hchan⟩ := hs hp
  exact ⟨h, hbank, hsupply, hhost, hchan⟩

theorem State.withOvl_permitWf {b : Fin 3} {i : SafetyInput} (hs : s.permitWf)
    (h : s.trip.config.overloadEnable = true → i.assertedHigh = false) : (s.withOvl b i).permitWf := by
  rw [State.permitWf_iff] at hs ⊢
  intro hp
  obtain ⟨htripIn, hbank, hsupply, hhost, hchan⟩ := hs hp
  refine ⟨htripIn, fun he a => ?_, hsupply, hhost, hchan⟩
  rw [State.withOvl_present]
  split
  · exact h he
  · exact hbank he a

theorem State.withSupplyOk_permitWf {i : SafetyInput} (hs : s.permitWf)
    (h : s.trip.config.supplyEnable = true → (s.withSupplyOk i).supplyLost = false) : (s.withSupplyOk i).permitWf := by
  rw [State.permitWf_iff] at hs ⊢
  intro hp
  obtain ⟨htripIn, hbank, -, hhost, hchan⟩ := hs hp
  exact ⟨htripIn, hbank, h, hhost, hchan⟩

theorem State.withOvl_owedWf {b : Fin 3} {i : SafetyInput} (hs : s.owedWf) (h : i.owed = true → i.input.filtered = true) :
    (s.withOvl b i).owedWf := by
  refine ⟨fun a => ?_, hs.2⟩
  show (s.safety.ovl.set b i)[a].owed = true → (s.safety.ovl.set b i)[a].input.filtered = true
  rw [vector_set_getElem]
  split
  · exact h
  · exact hs.1 a

/-! ### Causes that release (R161, R165) -/

theorem State.setCondition_sound {present : Bool} (hs : s.Sound) (hledger : v.ledger = s.ledger)
    (hsame : s.SameCauses (only source kind) v) (hpresent : v.causePresent source kind = present) (hv : v.tripWf) :
    (v.setCondition source kind present).Sound := ⟨hv, hs.2.setCondition hledger hsame hpresent⟩

theorem State.tripInRelease_sound (hs : s.Sound) (hreleases : s.tripInReleases = true) :
    ((s.withTripIn s.safety.tripIn.release).setCondition .tripIn .tripInput false).Sound := by
  have hended : (s.withTripIn s.safety.tripIn.release).tripInPresent = false := by
    simp only [State.tripInReleases, Bool.and_eq_true, beq_iff_eq] at hreleases
    show ((!s.safety.tripIn.input.filtered) == s.trip.config.tripInActiveHigh && !s.safety.tripIn.owed) = false
    rw [hreleases.2]
    cases s.trip.config.tripInActiveHigh <;> rfl
  obtain ⟨hfault, hpermit, howed⟩ := hs.1
  exact State.setCondition_sound hs rfl (s.withTripIn_sameCauses _) hended ⟨hfault, State.withTripIn_permitWf hpermit fun _ => hended, howed⟩

theorem State.overloadRelease_sound {b : Fin 3} (hs : s.Sound) (hreleases : s.overloadReleases b = true) :
    ((s.withOvl b s.safety.ovl[b].release).setCondition (.bank b) .overload false).Sound := by
  simp only [State.overloadReleases, Bool.and_eq_true, Bool.not_eq_true'] at hreleases
  obtain ⟨⟨hnotOwed, -⟩, hactive⟩ := hreleases
  have hended : s.safety.ovl[b].release.assertedHigh = false := by
    show ((!s.safety.ovl[b].input.filtered) && !s.safety.ovl[b].owed) = false
    rw [hactive]; rfl
  obtain ⟨hfault, hpermit, howed⟩ := hs.1
  refine State.setCondition_sound hs rfl (s.withOvl_sameCauses b _) ?_
    ⟨hfault, State.withOvl_permitWf hpermit fun _ => hended, State.withOvl_owedWf howed fun h => ?_⟩
  · exact ((s.withOvl_present b b _).trans (if_pos rfl)).trans hended
  · exact absurd (hnotOwed.symm.trans h) nofun

theorem State.supplyReturn_sound (hs : s.Sound) (hreleases : s.supplyReleases = true) :
    ((s.withSupplyOk s.safety.supplyOk.release).setCondition .supply .supplyLoss false).Sound := by
  simp only [State.supplyReleases, Bool.and_eq_true, Bool.not_eq_true'] at hreleases
  obtain ⟨⟨hnotOwed, -⟩, hlost⟩ := hreleases
  have hended : (s.withSupplyOk s.safety.supplyOk.release).supplyLost = false := by
    show (!(!s.safety.supplyOk.input.filtered) && !s.safety.supplyOk.owed) = false
    rw [hlost]; rfl
  obtain ⟨hfault, hpermit, howed⟩ := hs.1
  exact State.setCondition_sound hs rfl (s.withSupplyOk_sameCauses _) hended
    ⟨hfault, State.withSupplyOk_permitWf hpermit fun _ => hended, howed.1, fun h => absurd (hnotOwed.symm.trans h) nofun⟩

/-! ### Causes that assert (R149, R161, R164, R170, R171, R173) -/

theorem State.tripInAssert_sound (hs : s.Sound) (hasserts : s.tripInAsserts = true) :
    let t := s.withTripIn s.safety.tripIn.assert
    (t.causeAsserts .tripIn .tripInput t.tripInPresent t.trip.config.tripInEnable .tripIn).Sound := by
  have habsent : s.tripInPresent = false := by
    show (s.safety.tripIn.input.filtered == s.trip.config.tripInActiveHigh && !s.safety.tripIn.owed) = false
    simp only [State.tripInAsserts, Bool.or_eq_true, Bool.and_eq_true, bne_iff_ne] at hasserts
    obtain howed | ⟨-, hinactive⟩ := hasserts
    · rw [howed, Bool.not_true, Bool.and_false]
    · rw [beq_false_of_ne hinactive, Bool.false_and]
  obtain ⟨hfault, hpermit, howed⟩ := hs.1
  exact State.causeAsserts_sound hs rfl (s.withTripIn_sameCauses _) rfl (fun h => absurd (habsent.symm.trans h) nofun) hfault howed
    fun hdisabled => State.withTripIn_permitWf hpermit fun h => absurd (hdisabled.symm.trans h) nofun

/-- The shutting of a bank plays no part in the conditions. -/
theorem State.overloadAssert_sound {b : Fin 3} (hs : s.Sound) (hasserts : s.overloadAsserts b = true) :
    (((s.withOvl b s.safety.ovl[b].assert).setShut b true).causeAsserts (.bank b) .overload true
      s.trip.config.overloadEnable (.overload b)).Sound := by
  obtain ⟨hfault, hpermit, howed⟩ := hs.1
  have hactive : s.safety.ovl[b].assert.reading = (true, false) := by
    rw [SafetyInput.assert_reading]
    simp only [State.overloadAsserts, Bool.or_eq_true, Bool.and_eq_true, Bool.not_eq_true'] at hasserts
    split
    next h => rw [howed.1 b h]
    next h => rw [(hasserts.resolve_left h).2]; rfl
  have hreads : s.safety.ovl[b].assert.input.filtered = true ∧ s.safety.ovl[b].assert.owed = false := Prod.mk.inj hactive
  obtain ⟨hfiltered, hnotOwed⟩ := hreads
  have hpresent : s.safety.ovl[b].assert.assertedHigh = true := by rw [SafetyInput.assertedHigh, hfiltered, hnotOwed]; rfl
  have hsame := s.withOvl_sameCauses b s.safety.ovl[b].assert
  refine State.causeAsserts_sound hs rfl ⟨hsame.channel, hsame.bank, hsame.supply, hsame.tripIn, hsame.host⟩ ?_ (fun _ => rfl)
    hfault (State.withOvl_owedWf (s := s) (b := b) howed fun _ => hfiltered) fun hdisabled => ?_
  · exact ((s.withOvl_present b b _).trans (if_pos rfl)).trans hpresent
  · exact State.withOvl_permitWf (s := s) (b := b) (i := s.safety.ovl[b].assert) hpermit fun h => absurd (hdisabled.symm.trans h) nofun

theorem State.supplyLoss_sound (hs : s.Sound) (hasserts : s.supplyAsserts = true) :
    ((s.withSupplyOk s.safety.supplyOk.assert).causeAsserts .supply .supplyLoss true s.trip.config.supplyEnable .supply).Sound := by
  obtain ⟨hfault, hpermit, howed⟩ := hs.1
  have hactive : s.safety.supplyOk.assert.reading = (false, false) := by
    rw [SafetyInput.assert_reading]
    simp only [State.supplyAsserts, Bool.or_eq_true, Bool.and_eq_true] at hasserts
    split
    next h => rw [howed.2 h]
    next h => rw [(hasserts.resolve_left h).2]; rfl
  have hreads : s.safety.supplyOk.assert.input.filtered = false ∧ s.safety.supplyOk.assert.owed = false := Prod.mk.inj hactive
  obtain ⟨hfiltered, hnotOwed⟩ := hreads
  have hpresent : (s.withSupplyOk s.safety.supplyOk.assert).supplyLost = true := by
    show (!s.safety.supplyOk.assert.input.filtered && !s.safety.supplyOk.assert.owed) = true
    rw [hfiltered, hnotOwed]; rfl
  exact State.causeAsserts_sound hs rfl (s.withSupplyOk_sameCauses _) hpresent (fun _ => rfl) hfault ⟨howed.1, fun _ => hfiltered⟩
    fun hdisabled => State.withSupplyOk_permitWf hpermit fun h => absurd (hdisabled.symm.trans h) nofun

/-- WATCH_EXPIRY: the host is lost, and the watch has stopped. -/
theorem State.watchExpiry_sound (hs : s.Sound) :
    ((s.withTrip { s.trip with watchLeft := none, hostLost := true }).causeAsserts .host .hostLost true
      (s.trip.config.hostLoss == .trip) .hostLost).Sound := by
  obtain ⟨hfault, hpermit, howed⟩ := hs.1
  refine State.causeAsserts_sound hs rfl
    ⟨fun _ _ _ => rfl, fun _ _ => rfl, fun _ => rfl, fun _ => rfl, fun h => absurd ⟨rfl, rfl⟩ h⟩ rfl (fun _ => rfl) hfault howed
    fun hdisabled => ?_
  rw [State.permitWf_iff] at hpermit ⊢
  intro hp
  obtain ⟨htripIn, hbank, hsupply, -, hchan⟩ := hpermit hp
  exact ⟨htripIn, hbank, hsupply, fun h => absurd h (beq_eq_false_iff_ne.mp hdisabled), hchan⟩

/-- TRIP: a SOFT occurrence has no cause that is ever present. -/
theorem State.softTrip_sound (s : State) : s.StaysSound s.softTrip := fun hs =>
  State.causeAsserts_sound (present := false) (enabled := true) (trip := .soft) (source := .soft) (kind := .softTrip) hs rfl
    ((State.KeepsTroubles.refl s).sameCauses _) rfl id hs.1.1 hs.1.2.2 nofun

/-! ### The host, the permit and the configuration (R10, R165, R168, R170, R172) -/

/-- The commit signal ends a host-lost condition. -/
theorem State.signOfLife_sound (s : State) : s.StaysSound s.signOfLife := by
  intro hs
  unfold State.signOfLife
  simp only
  split
  next =>
    obtain ⟨hfault, hpermit, howed⟩ := hs.1
    refine State.setCondition_sound hs rfl
      ⟨fun _ _ _ => rfl, fun _ _ => rfl, fun _ => rfl, fun _ => rfl, fun h => absurd ⟨rfl, rfl⟩ h⟩ rfl ⟨hfault, ?_, howed⟩
    rw [State.permitWf_iff] at hpermit ⊢
    intro hp
    obtain ⟨htripIn, hbank, hsupply, -, hchan⟩ := hpermit hp
    exact ⟨htripIn, hbank, hsupply, fun _ => rfl, hchan⟩
  next hlost =>
    have hkept : s.KeepsTroubles (s.withTrip { s.trip with watchLeft := s.trip.config.fullWatch, hostLost := false }) :=
      ⟨rfl, fun _ => rfl, rfl, rfl, (Bool.eq_false_of_not_eq_true hlost).symm, rfl, id, rfl, fun _ => rfl⟩
    exact hkept.sound hs

/-- A grant comes when no enabled cause is present. -/
theorem State.grant_sound {auto : Option (Fin 6)} (hs : s.Sound) (hp : s.trip.permit ≠ .permitted) (hcauses : s.enabledCauses = 0#32) :
    (s.grant auto).Sound := by
  obtain ⟨hfields, -⟩ := s.grant_cases auto hp
  obtain ⟨⟨hfault, -, howed⟩, hledger⟩ := hs
  have hcauseless := (s.enabledCausesUnder_eq_zero _).mp hcauses
  rw [hfields]
  exact ⟨⟨hfault, (State.permitWf_iff _).mpr fun _ => hcauseless.congr rfl (fun _ => rfl) rfl rfl rfl fun _ => Iff.rfl, howed⟩,
    hledger.sublist (.refl _) fun _ _ => rfl⟩

/-- A new configuration under which a PERMITTED permit meets no enabled cause; the TRIP_INPUT record follows its polarity. -/
theorem State.configureTrip_sound {c : TripConfig} (hs : s.Sound)
    (hcauses : s.trip.permit = .permitted → s.enabledCausesUnder c = 0#32) : (s.configureTrip c).Sound := by
  obtain ⟨hfault, -, howed⟩ := hs.1
  refine State.setCondition_sound (s := s) hs rfl
    ⟨fun _ _ _ => rfl, fun _ _ => rfl, fun _ => rfl, fun h => absurd ⟨rfl, rfl⟩ h, fun _ => rfl⟩ rfl ⟨hfault, ?_, howed⟩
  rw [State.permitWf_iff]
  intro hp
  exact ((s.enabledCausesUnder_eq_zero c).mp (hcauses hp)).congr rfl (fun _ => rfl) rfl rfl rfl fun _ => Iff.rfl

end Sys2Proof.Machine
end

section
/-! What the runs of channels keep of the permit and the ledger (R83 to R99, R121 to R134, R162, R163, R169, R180). -/

namespace Sys2Proof.Machine

variable {s t u v : State} {k : Fin 6}

/-! ### Operations that leave the troubles of every channel -/

theorem State.KeepsTroubles.of_matrix (h : t = { s with matrix := t.matrix }) : s.KeepsTroubles t := by
  rw [h]; exact .of_eq rfl rfl rfl fun _ => rfl

theorem State.KeepsTroubles.offer (s : State) (n : Notice) : s.KeepsTroubles (s.offer n) :=
  .of_eq (s.offer_safety n) (s.offer_trip n) (by rw [s.offer_ledger n]) fun k => by rw [s.offer_chan n k]

/-- What a channel does of itself without the Trip Unit and the ledger. -/
theorem State.RunFrame.keepsTroubles_of_trip (h : s.RunFrame k t) (htrip : t.trip = s.trip) (hledger : t.ledger = s.ledger)
    (htrouble : (t.chan k).trouble = (s.chan k).trouble) : s.KeepsTroubles t :=
  h.keepsTroubles (by rw [htrip]) (by rw [htrip]; exact id) (by rw [hledger]) htrouble

theorem Channel.SameButMarks.trouble {c d : Channel} (h : c.SameButMarks d) : d.trouble = c.trouble := by
  rw [show d = _ from h]; rfl

theorem Channel.SameButHeld.trouble {c d : Channel} (h : c.SameButHeld d) : d.trouble = c.trouble := by
  rw [show d = _ from h]; rfl

theorem State.Fired.keepsTroubles (h : s.Fired k t) : s.KeepsTroubles t :=
  h.frame.keepsTroubles_of_trip h.trip h.ledger h.chan.trouble

theorem State.Edge.keepsTroubles {d : Channel} (h : s.Edge k t d) (hd : d.trouble = (s.chan k).trouble) : s.KeepsTroubles t := by
  refine .of_eq (by rw [h.fields]) (by rw [h.fields]) (by rw [h.fields]) fun i => ?_
  by_cases hi : i = k
  · rw [hi, h.becomes, hd]
  · rw [h.others i hi]

theorem Channel.pastBoundary_trouble (c : Channel) (f : FrontEnd) : (c.pastBoundary f).trouble = c.trouble := by
  unfold Channel.pastBoundary
  split <;> rfl

theorem State.pendingCopy_troubles (s : State) (k : Fin 6) : s.KeepsTroubles (s.pendingCopy k) := by
  obtain ⟨⟨a, hchan⟩, -, hfields⟩ := s.pendingCopy_cases k
  exact (s.pendingCopy_frame k).keepsTroubles_of_trip (by rw [hfields]) (by rw [hfields])
    (by rw [hchan]; exact Channel.pastBoundary_trouble _ _)

theorem State.copyStaged_troubles (s : State) (k : Fin 6) : s.KeepsTroubles (s.copyStaged k) := by
  obtain ⟨hframe, hchan, hfields⟩ := s.copyStaged_cases k
  exact hframe.keepsTroubles_of_trip (by rw [hfields]) (by rw [hfields]) hchan.trouble

theorem State.endRun_troubles (s : State) (k : Fin 6) : s.KeepsTroubles (s.endRun k) := by
  have hreleases := State.KeepsTroubles.of_matrix (s.releaseLines_cases k).1
  unfold State.endRun
  exact hreleases.trans (.modChan_always _ k fun _ => rfl)

/-! ### The ends and the changes of runs (R87, R90, R91, R93, R94) -/

theorem State.Completes.keepsTroubles {n : BitVec 16} (h : s.Completes k n t) (hk : (s.chan k).state ≠ .faulted) : s.KeepsTroubles t := by
  refine .of_eq (by rw [h.fields]) (by rw [h.fields]) (by rw [h.fields]) fun i => ?_
  by_cases hi : i = k
  · rw [hi, h.becomes]
    refine Channel.trouble_of_unfaulted hk nofun ?_
    unfold Channel.completed
    cases (s.chan k).commitPending <;> rfl
  · rw [h.others i hi]

theorem Channel.wrapped_trouble (c : Channel) (f : FrontEnd) : (c.wrapped f).trouble = c.trouble := by
  unfold Channel.wrapped
  cases c.commitPending <;> rfl

theorem State.wrapLoads_troubles (s : State) (k : Fin 6) : s.KeepsTroubles (s.wrapLoads k) := by
  obtain ⟨hfields, -, -, -, hothers, hchan⟩ := s.wrapLoads_cases k
  refine .of_eq (by rw [hfields]) (by rw [hfields]) (by rw [hfields]) fun i => ?_
  by_cases hi : i = k
  · rw [hi, hchan, Channel.wrapped_trouble]
  · rw [hothers i hi]

/-- An auto-resume grants the permit only when no enabled cause is present (R169). -/
theorem State.autoResume_sound (s : State) (k : Fin 6) : s.StaysSound (s.autoResume k) :=
  .ite (fun ⟨_, htripped, hcauses⟩ hs => State.grant_sound hs (by rw [htripped]; decide) hcauses) fun _ => .refl s

theorem State.cycleEnd_sound (hk : (s.chan k).state ≠ .faulted) : s.StaysSound (s.cycleEnd k) := by
  rw [State.cycleEnd_eq]
  refine .ite (fun _ => ((s.finalCycleEnd_cases k).keepsTroubles hk).stays) fun _ => ?_
  rw [State.wrap_eq]
  exact (s.wrapLoads_troubles k).stays.trans (State.autoResume_sound _ k)

theorem State.enterQuenched_troubles (hk : (s.chan k).state ≠ .faulted) : s.KeepsTroubles (s.enterQuenched k) := by
  have h := s.enterQuenched_cases k
  refine .of_eq (by rw [h.fields]) (by rw [h.fields]) (by rw [h.fields]) fun i => ?_
  by_cases hi : i = k
  · rw [hi, h.acted k (beq_self_eq_true k)]
    exact Channel.trouble_of_unfaulted hk nofun rfl
  · rw [h.others i (beq_eq_false_iff_ne.mpr hi)]

theorem Channel.start_trouble {c : Channel} (h : c.state ≠ .faulted) : c.start.trouble = c.trouble := by
  refine Channel.trouble_of_unfaulted h ?_ ?_
  · unfold Channel.start
    rw [Channel.beginRun_eq]
    split <;> exact nofun
  · unfold Channel.start
    rw [Channel.beginRun_eq]
    split <;> rfl

theorem Channel.returnToRunning_trouble {c : Channel} (h : c.state ≠ .faulted) : c.rearmForRestart.enterRunning.trouble = c.trouble :=
  Channel.trouble_of_unfaulted h (by rw [Channel.enterRunning_eq]; exact nofun) rfl

/-! ### Faults (R99, R162, R163) -/

/-- The occurrence of the fault is taken: the channel is FAULTED, and not yet handed over. -/
theorem State.faultTaken_sound (hs : s.Sound) (hk : (s.chan k).state ≠ .faulted) (fault : ChannelFault) :
    ((s.faultRun k fault).faultOccurrence (.channel k) fault.kind true).Sound
      ∧ (((s.faultRun k fault).faultOccurrence (.channel k) fault.kind true).chan k).state = .faulted := by
  obtain ⟨hv, hvk, hvi, -⟩ := s.faultRun_cases k fault
  generalize s.faultRun k fault = v at hv hvk hvi
  have hledger : v.ledger = s.ledger := by rw [hv]
  have hsafety : v.safety = s.safety := by rw [hv]
  have htrip : v.trip = s.trip := by rw [hv]
  have hunhanded : s.trip.handed[k] = false := hs.1.unhanded hk
  have hnone : (s.chan k).faultedBy = none := hs.1.unfaulted hk
  have hsame : s.SameCauses (only (.channel k) fault.kind) v := by
    refine .of_channels hsafety (by rw [htrip]) (by rw [htrip]) fun i f hif => ?_
    by_cases hi : i = k
    · have hf : fault ≠ f := fun h => hif ⟨by rw [hi], by rw [h]⟩
      rw [hi, hvk, hnone]
      simpa [Channel.faulted] using hf
    · rw [hvi i hi]
  have hpresent : v.causePresent (.channel k) fault.kind = true := by
    cases fault <;> simp [State.causePresent, ChannelFault.kind, hvk, Channel.faulted]
  have hfault : ∀ i, v.faultWf i := fun i => by
    by_cases hi : i = k
    · rw [hi, State.faultWf, hvk, htrip, hunhanded]
      exact ⟨⟨fun _ => rfl, fun _ => rfl⟩, nofun⟩
    · rw [State.faultWf, hvi i hi, htrip]
      exact hs.1.1 i
  have hpermit : v.permitWf := by
    have hsound := (State.permitWf_iff s).mp hs.1.2.1
    rw [State.permitWf_iff, htrip]
    intro hp
    refine (hsound hp).of_channels hsafety (by rw [htrip]) fun i hi => ?_
    rw [htrip] at hi
    have hne : i ≠ k := fun h => by rw [h, hunhanded] at hi; cases hi
    rw [hvi i hne]
    exact (hsound hp).channels i hi
  have howed : v.owedWf := hs.1.2.2.congr (fun b => by rw [hsafety]) (by rw [hsafety])
  refine ⟨State.causeAsserts_sound (enabled := false) (trip := .soft) hs hledger hsame hpresent (fun _ => rfl) hfault howed fun _ => hpermit, ?_⟩
  obtain ⟨hw, -⟩ := v.faultOccurrence_cases (.channel k) fault.kind true .soft
  rw [hw]
  show (v.chan k).state = .faulted
  rw [hvk]; rfl

/-- A FAULTED channel is handed over; a PERMITTED permit is withdrawn in the same step. -/
theorem State.handFault_sound (hs : s.Sound) (hk : (s.chan k).state = .faulted) (handed : Bool) : (s.handFault k handed).Sound := by
  obtain ⟨hfields, -, -, -, hflags, htrip⟩ := s.handFault_cases k handed
  generalize s.handFault k handed = t at hfields hflags htrip
  obtain ⟨⟨hfault, hpermit, howed⟩, hledger⟩ := hs
  have hchan : ∀ i, t.chan i = s.chan i := fun i => by rw [hfields]; rfl
  have hsafety : t.safety = s.safety := by rw [hfields]
  have hsame : s.SameCauses (fun _ _ => False) t :=
    .of_channels hsafety (by rw [htrip]) (by rw [htrip]) fun i f _ => by rw [hchan]
  refine ⟨⟨fun i => ?_, fun hp => ?_, howed.congr (fun b => by rw [hsafety]) (by rw [hsafety])⟩,
    hledger.sublist (by rw [hfields]) fun a b => hsame.present id⟩
  · rw [State.faultWf, hchan]
    refine ⟨(hfault i).1, fun h => ?_⟩
    rw [hflags, Bool.or_eq_true, Bool.and_eq_true, decide_eq_true_iff] at h
    obtain h | ⟨rfl, -⟩ := h
    · exact (hfault i).2 h
    · exact hk
  · cases handed with
    | false =>
      have hsame : t.trip = s.trip := by
        rw [htrip]
        have hhanded : t.trip.handed = s.trip.handed := Vector.ext fun i hi => by simpa using hflags ⟨i, hi⟩
        simp [hhanded]
      rw [State.enabledCauses_congr hsafety hsame fun i => by rw [hchan]]
      rw [hsame] at hp
      exact hpermit hp
    | true =>
      rw [htrip] at hp
      cases hpermit : s.trip.permit <;> simp [hpermit] at hp

theorem State.channelFault_sound (hk : (s.chan k).state ≠ .faulted) (fault : ChannelFault) : s.StaysSound (s.channelFault k fault) :=
  fun hs => by
    rw [State.channelFault_eq]
    obtain ⟨htaken, hfaulted⟩ := State.faultTaken_sound hs hk fault
    exact (State.pendingCopy_troubles _ k).sound (State.handFault_sound htaken hfaulted _)

/-! ### Steps (R80, R84, R85, R92, R98, R131) -/

theorem State.afterForwardStep_sound (hk : (s.chan k).state ≠ .faulted) (p : Int) : s.StaysSound (s.afterForwardStep k p) := by
  have fires : s.KeepsTroubles (if (s.chan k).state = .running then s.fireMarks k p else s) :=
    .ite (fun _ => (State.Fired.fireMarks s k p).keepsTroubles) fun _ => .refl s
  rw [State.afterForwardStep_eq]
  generalize (if (s.chan k).state = .running then s.fireMarks k p else s) = t at fires
  have hfired : (t.chan k).state ≠ .faulted := mt (Channel.faulted_of_trouble (fires.troubles k)).mp hk
  exact .ite (fun _ => fires.stays) fun _ => .ite (fun _ => fires.stays.trans (State.cycleEnd_sound hfired))
    fun _ => (fires.trans ((t.completeRun_cases k).keepsTroubles hfired)).stays

theorem Channel.restartStall_trouble (c : Channel) : c.restartStall.trouble = c.trouble := by
  rw [Channel.restartStall_eq]; rfl

theorem State.countStep_sound (hk : (s.chan k).state ≠ .faulted) (forward : Bool) : s.StaysSound (s.countStep k forward) := by
  have moved : ∀ x : Word, s.KeepsTroubles (s.modChan k fun d => Channel.restartStall { d with value := x }) := fun x =>
    .modChan_always s k fun _ => Channel.restartStall_trouble _
  have resynced : s.KeepsTroubles (s.modChan k Channel.resyncStep) := .modChan_always s k fun _ => Channel.restartStall_trouble _
  refine .ite (fun _ => resynced.stays) fun _ => .ite (fun _ => State.channelFault_sound hk .overflow) fun _ => ?_
  refine .ite (fun _ => (moved _).stays.trans (State.afterForwardStep_sound ?_ _)) fun _ => (moved _).stays
  exact mt (Channel.faulted_of_trouble ((moved _).troubles k)).mp hk

/-- Only a channel that counts takes a step, and so none that is FAULTED. -/
theorem State.takeStep_sound (k : Fin 6) (gate : Bool) (s : State) (forward : Bool) : s.StaysSound (State.takeStep k gate s forward) := by
  refine .ite (fun happlies => ?_) fun _ => .refl s
  have hk : (s.chan k).state ≠ .faulted := fun h => by
    have hcounts := ((s.appliesStep_iff k gate).mp happlies).1
    rw [h] at hcounts
    cases hcounts
  have accumulated : s.KeepsTroubles (s.modChan k (·.accumulate forward)) :=
    .modChan_always s k fun c => by rw [Channel.accumulate_eq]; rfl
  split
  · exact .refl s
  · exact accumulated.stays
  all_goals exact State.countStep_sound hk forward

theorem State.takeSteps_sound (before after : FrontEnd) (s : State) (k : Fin 6) : s.StaysSound (s.takeSteps before after k) := by
  have counted : s.KeepsTroubles (if s.phaseErrorOf before after k then
      s.modChan k fun c => { c with phaseErrors := saturatingAdd c.phaseErrors 1 } else s) :=
    .ite (fun _ => .modChan_always s k fun _ => rfl) fun _ => .refl s
  exact counted.stays.trans (.fold (State.takeStep_sound k (s.chan k).gateOpen) _ _)

/-! ### Term edges and window ends (R52, R95, R134) -/

theorem ChannelState.afterTerms_faulted (x : ChannelState) (start quench restart : Bool) :
    x.afterTerms start quench restart = .faulted ↔ x = .faulted := by
  revert start quench restart
  cases x <;> decide

theorem Channel.evaluated_trouble (before after : FrontEnd) (ordinal : BitVec 16) (c d : Channel) :
    (Channel.evaluated before after ordinal c d).trouble = d.trouble := by
  have moves : ∀ start quench restart resync : Bool, (d.termEdges start quench restart resync).trouble = d.trouble :=
    fun start quench restart resync => by
      rw [Channel.termEdges_eq, Channel.moves_kept]
      exact Channel.trouble_eq (ChannelState.afterTerms_faulted _ _ _ _) rfl
  unfold Channel.evaluated
  simp only
  split
  · rw [(Channel.captureEdge_cases _ _).1]
    exact moves _ _ _ _
  · exact moves _ _ _ _

theorem State.evaluateChannel_troubles (before : FrontEnd) (s : State) (k : Fin 6) :
    s.KeepsTroubles (State.evaluateChannel before s k) := by
  obtain ⟨ordinal, hedge⟩ := State.Edge.evaluateChannel before s k
  have hsettled := (Channel.evaluate_same (s.chan k) s.inputs (s.chan k).active.stall).trouble
  refine hedge.keepsTroubles ?_
  simp only
  split
  · exact hsettled
  · rw [Channel.evaluated_trouble, hsettled]

theorem State.nextOrdinal_troubles (s : State) : s.KeepsTroubles s.nextOrdinal := .of_eq rfl rfl rfl fun _ => rfl

theorem State.offerIf_troubles (s : State) (b : Bool) (n : Notice) : s.KeepsTroubles (s.offerIf b n) :=
  .ite (fun _ => .offer s n) fun _ => .refl s

theorem State.windowEnd_troubles (s : State) (k : Fin 6) (length : WindowLength) : s.KeepsTroubles (s.windowEnd k length) := by
  have sampled : s.KeepsTroubles (s.modChan k Channel.takeSample) := .modChan_always s k fun _ => rfl
  have crosses : ∀ (t : State) (p : Prop) [Decidable p] (previous sample : Word),
      t.KeepsTroubles (if p then markNumbers.foldl (State.fireCrossing previous sample k) t else t) := fun t _ _ previous sample =>
    .ite (fun _ => (State.Fired.fold k _ (State.Fired.fireCrossing previous sample k) _ t).keepsTroubles) fun _ => .refl t
  unfold State.windowEnd
  exact (((((sampled.trans (crosses _ _ _ _)).trans (State.pendingCopy_troubles _ k)).trans (State.nextOrdinal_troubles _)).trans
    (.modChan_always _ k (by exact fun _ => rfl))).trans (State.offerIf_troubles _ _ _)).trans (.modChan_always _ k (by exact fun _ => rfl))

end Sys2Proof.Machine
end

section
/-! What COMMIT, HALT and ENGINE_RESET keep of the permit and the ledger (R67 to R76, R96, R165, R179, R188). -/

namespace Sys2Proof.Machine

variable {s t u v : State} {k : Fin 6}

/-! ### Acts on several channels -/

/-- Acts that keep the troubles where a condition holds, which they leave. -/
theorem State.KeepsTroubles.fold_of {act : State → Fin 6 → State} {admits : State → Fin 6 → Prop}
    (hact : ∀ (s : State) (k : Fin 6), admits s k → s.KeepsTroubles (act s k)) (hleaves : ∀ s k i, admits s k → admits s i → admits (act s k) i)
    (l : List (Fin 6)) : ∀ s : State, (∀ k ∈ l, admits s k) → s.KeepsTroubles (l.foldl act s) := by
  induction l with
  | nil => exact fun s _ => .refl s
  | cons k l ih =>
    intro s hl
    have hk := hl k List.mem_cons_self
    exact (hact s k hk).trans (ih _ fun i hi => hleaves s k i hk (hl i (List.mem_cons_of_mem k hi)))

/-- Acts that keep the troubles of channels that are not FAULTED. -/
theorem State.KeepsTroubles.fold_unfaulted {act : State → Fin 6 → State}
    (hact : ∀ (s : State) (k : Fin 6), (s.chan k).state ≠ .faulted → s.KeepsTroubles (act s k)) (l : List (Fin 6)) (s : State)
    (hl : ∀ k ∈ l, (s.chan k).state ≠ .faulted) : s.KeepsTroubles (l.foldl act s) :=
  .fold_of hact (fun s k i hk hi => mt (Channel.faulted_of_trouble ((hact s k hk).troubles i)).mp hi) l s hl

/-! ### The copies of COMMIT (R70 to R73) -/

theorem stateAfterCopy_faulted (x : ChannelState) (m : Mode) : stateAfterCopy x m = .faulted ↔ x = .faulted := by
  cases x <;> cases m <;> decide

theorem Channel.settleCopy_kept (c : Channel) : c.settleCopy = { c with value := c.settleCopy.value, arming := c.settleCopy.arming } := by
  unfold Channel.settleCopy
  split <;> rfl

theorem Channel.settleCopy_trouble (c : Channel) : c.settleCopy.trouble = c.trouble := by
  rw [c.settleCopy_kept]; rfl

/-- A halt by the commit ends a run, and an untouched or pending set differs in no structural field. -/
theorem Channel.disposition_cases (c : Channel) : (c.disposition = .halted → c.state ≠ .faulted)
    ∧ (c.disposition = .untouched → c.state ≠ .lent → c.staged.mode = c.active.mode)
    ∧ (c.disposition = .left → c.staged.mode = c.active.mode) := by
  have hmode : c.staged.differsStructurally c.active = false → c.staged.mode = c.active.mode := fun h => by
    simp only [ChannelConfig.differsStructurally, Bool.not_eq_false', Bool.and_eq_true, decide_eq_true_iff] at h
    exact h.1.1.1.1.1
  unfold Channel.disposition
  by_cases hsame : c.staged = c.active
  · rw [if_pos hsame]
    exact ⟨nofun, fun _ _ => by rw [hsame], nofun⟩
  · rw [if_neg hsame]
    cases hstate : c.state <;> cases hdiffers : c.staged.differsStructurally c.active <;> simp [hmode, hdiffers]

theorem State.immediateCopy_cases (s : State) (k : Fin 6) : s.RunFrame k (s.immediateCopy k) ∧ s.KeepsTroubles (s.immediateCopy k)
    ∧ ((s.immediateCopy k).chan k).active = (s.chan k).staged := by
  obtain ⟨hframe, hheld, -⟩ := s.copyStaged_cases k
  have hcopied := s.copyStaged_troubles k
  unfold State.immediateCopy
  simp only
  generalize s.copyStaged k = v at hframe hheld hcopied
  have hactive : (v.chan k).active = (s.chan k).staged := by rw [show v.chan k = _ from hheld]
  have entered : v.KeepsTroubles (v.modChan k fun c => { c with state := stateAfterCopy c.state c.active.mode }) :=
    .modChan_always v k fun c => Channel.trouble_eq (stateAfterCopy_faulted _ _) rfl
  have hentered : ((v.modChan k fun c => { c with state := stateAfterCopy c.state c.active.mode }).chan k).active = (v.chan k).active := by
    rw [State.chan_modChan_same]
  have hv : v.RunFrame k (v.modChan k fun c => { c with state := stateAfterCopy c.state c.active.mode }) :=
    .modChan v k _ (by exact fun _ => rfl)
  generalize v.modChan k (fun c => { c with state := stateAfterCopy c.state c.active.mode }) = w at entered hentered hv
  have released : ∀ (p : Prop) [Decidable p], w.RunFrame k (if p then w.releaseLines k else w)
      ∧ w.KeepsTroubles (if p then w.releaseLines k else w) ∧ (if p then w.releaseLines k else w).chan k = w.chan k := fun p _ => by
    split
    · exact ⟨.releaseLines k k w, .of_matrix (w.releaseLines_cases k).1, State.chan_of_matrix (w.releaseLines_cases k).1⟩
    · exact ⟨.refl k w, .refl w, rfl⟩
  obtain ⟨hx, hreleased, hxk⟩ := released ((s.chan k).state ≠ .off ∧ (w.chan k).state = .off)
  generalize (if (s.chan k).state ≠ .off ∧ (w.chan k).state = .off then w.releaseLines k else w) = x at hx hreleased hxk
  refine ⟨((hframe.trans hv).trans hx).trans (.modChan x k _ fun c => by rw [c.settleCopy_kept]),
    ((hcopied.trans entered).trans hreleased).trans (.modChan_always x k Channel.settleCopy_trouble), ?_⟩
  rw [State.chan_modChan_same, Channel.settleCopy_kept, hxk, hentered, hactive]

theorem State.haltedCopy_cases (s : State) (k : Fin 6) : s.RunFrame k (s.haltedCopy k)
    ∧ ((s.chan k).state ≠ .faulted → s.KeepsTroubles (s.haltedCopy k)) ∧ ((s.haltedCopy k).chan k).active = (s.chan k).staged := by
  have hended := s.endRun_troubles k
  have hendframe := s.endRun_frame k
  unfold State.haltedCopy
  simp only
  generalize s.endRun k = v at hended hendframe
  have hv : v.RunFrame k (v.modChan k fun c => { c with state := if c.staged.mode = .off then .off else .idle }) :=
    .modChan v k _ (by exact fun _ => rfl)
  have hentered : (s.chan k).state ≠ .faulted →
      v.KeepsTroubles (v.modChan k fun c => { c with state := if c.staged.mode = .off then .off else .idle }) := fun hk => by
    refine .modChan v k (Channel.trouble_of_unfaulted (mt (Channel.faulted_of_trouble (hended.troubles k)).mp hk) ?_ rfl)
    dsimp only
    split <;> exact nofun
  generalize v.modChan k (fun c => { c with state := if c.staged.mode = .off then .off else .idle }) = w at hv hentered
  obtain ⟨hcopyframe, hheld, -⟩ := w.copyStaged_cases k
  have hcopied := w.copyStaged_troubles k
  generalize w.copyStaged k = x at hcopyframe hheld hcopied
  have hframe := (hendframe.trans hv)
  refine ⟨(hframe.trans hcopyframe).trans (.modChan x k _ fun c => by rw [c.settleCopy_kept]),
    fun hk => ((hended.trans (hentered hk)).trans hcopied).trans (.modChan_always x k Channel.settleCopy_trouble), ?_⟩
  rw [State.chan_modChan_same, Channel.settleCopy_kept, show x.chan k = _ from hheld]
  exact hframe.staged

theorem State.applyCommit_cases (s : State) (k : Fin 6) : s.RunFrame k (s.applyCommit k) ∧ s.KeepsTroubles (s.applyCommit k)
    ∧ ((s.chan k).state ≠ .lent → ((s.applyCommit k).chan k).active.mode = (s.chan k).staged.mode) := by
  obtain ⟨hhalted, huntouched, hleft⟩ := (s.chan k).disposition_cases
  unfold State.applyCommit
  cases hdisposition : (s.chan k).disposition with
  | untouched => exact ⟨.refl k s, .refl s, fun hk => (huntouched hdisposition hk).symm⟩
  | copied =>
    obtain ⟨hframe, hkeeps, hactive⟩ := s.immediateCopy_cases k
    exact ⟨hframe, hkeeps, fun _ => by rw [hactive]⟩
  | halted =>
    obtain ⟨hframe, hkeeps, hactive⟩ := s.haltedCopy_cases k
    exact ⟨hframe, hkeeps (hhalted hdisposition), fun _ => by rw [hactive]⟩
  | left =>
    refine ⟨.modChan s k _ (by exact fun _ => rfl), .modChan_always s k (by exact fun _ => rfl), fun _ => ?_⟩
    rw [State.chan_modChan_same]
    exact (hleft hdisposition).symm

/-- The copies of a cohort: each named channel has its staged mode, unless it is LENT, and no other channel changes. -/
theorem State.applyCommits (l : List (Fin 6)) : ∀ s : State, l.Nodup →
    s.KeepsTroubles (l.foldl State.applyCommit s)
      ∧ (∀ i ∉ l, (l.foldl State.applyCommit s).chan i = s.chan i)
      ∧ ∀ i ∈ l, (s.chan i).state ≠ .lent → ((l.foldl State.applyCommit s).chan i).active.mode = (s.chan i).staged.mode := by
  induction l with
  | nil => exact fun s _ => ⟨.refl s, fun _ _ => rfl, nofun⟩
  | cons k l ih =>
    intro s hl
    obtain ⟨hk, hl⟩ := List.nodup_cons.mp hl
    obtain ⟨hframe, hkeeps, hmode⟩ := s.applyCommit_cases k
    obtain ⟨hrest, hothers, hmodes⟩ := ih (s.applyCommit k) hl
    refine ⟨hkeeps.trans hrest, fun i hi => ?_, fun i hi hlent => ?_⟩
    · obtain ⟨hik, hil⟩ : i ≠ k ∧ i ∉ l := by simpa using hi
      rw [List.foldl_cons, hothers i hil, hframe.others i hik]
    · rw [List.foldl_cons]
      obtain rfl | hil := List.mem_cons.mp hi
      · rw [hothers i hk, hmode hlent]
      · have hik : i ≠ k := fun h => hk (h ▸ hil)
        rw [hmodes i hil (by rwa [hframe.others i hik]), hframe.others i hik]

/-! ### The lending of a partner (R69, R76) -/

/-- The even channel of the pair that a channel belongs to. -/
def evenOf (k : Fin 6) : Fin 6 := if isEven k then k else partner k

theorem isEven_evenOf (k : Fin 6) : isEven (evenOf k) = true := by revert k; decide

theorem eq_evenOf_or (k : Fin 6) : evenOf k = k ∨ isEven k = false ∧ evenOf k = partner k ∧ partner (evenOf k) = k := by
  revert k; decide

theorem State.settlePartner_eq (s : State) (k : Fin 6) : s.settlePartner k =
    if (s.chan (evenOf k)).active.mode = .span then s.modChan (partner (evenOf k)) ({ · with state := .lent })
    else if (s.chan (partner (evenOf k))).state = .lent then s.modChan (partner (evenOf k)) ({ · with state := .off })
    else s := rfl

/-- A partner that is to be lent is not FAULTED. -/
def State.lendable (s : State) (k : Fin 6) : Prop :=
  (s.chan (evenOf k)).active.mode = .span → (s.chan (partner (evenOf k))).state ≠ .faulted

theorem State.settlePartner_active (s : State) (k i : Fin 6) : ((s.settlePartner k).chan i).active = (s.chan i).active := by
  have hmod : ∀ (j : Fin 6) (x : ChannelState), ((s.modChan j ({ · with state := x })).chan i).active = (s.chan i).active := fun j x => by
    rw [State.chan_modChan]
    split
    next h => rw [h]
    next => rfl
  rw [State.settlePartner_eq]
  split
  · exact hmod _ _
  · split
    · exact hmod _ _
    · rfl

theorem State.settlePartner_troubles (h : s.lendable k) : s.KeepsTroubles (s.settlePartner k) := by
  rw [State.settlePartner_eq]
  refine .ite (fun hspan => .modChan s _ (Channel.trouble_of_unfaulted (h hspan) nofun rfl)) fun _ =>
    .ite (fun hlent => .modChan s _ (Channel.trouble_of_unfaulted (by rw [hlent]; exact nofun) nofun rfl)) fun _ => .refl s

theorem State.settlePartners_troubles (l : List (Fin 6)) (s : State) (hl : ∀ k ∈ l, s.lendable k) :
    s.KeepsTroubles (l.foldl State.settlePartner s) :=
  .fold_of (fun _ _ => State.settlePartner_troubles)
    (fun s k i hk hi hspan => by
      rw [State.settlePartner_active] at hspan
      exact mt (Channel.faulted_of_trouble ((State.settlePartner_troubles hk).troubles _)).mp (hi hspan)) l s hl

theorem State.commitFailure_of_cohort {cohort : Word} {l : List (Fin 6)} (h : s.cohortFailure cohort l = none) :
    ∀ k ∈ l, s.commitFailure cohort k = none := by
  induction l with
  | nil => exact nofun
  | cons k l ih =>
    unfold State.cohortFailure at h
    cases hk : s.commitFailure cohort k with
    | some x => rw [hk] at h; cases h
    | none =>
      rw [hk] at h
      exact List.forall_mem_cons.mpr ⟨hk, ih h⟩

/-- A channel that passes the checks is not LENT, and under a staged SPAN its partner is OFF or LENT. -/
theorem State.commitFailure_none {cohort : Word} (h : s.commitFailure cohort k = none) : (s.chan k).state ≠ .lent
    ∧ ((s.chan k).staged.mode = .span → isEven k = true → (s.chan (partner k)).state ≠ .faulted) := by
  unfold State.commitFailure at h
  simp only at h
  split at h
  next => cases h
  next hlent =>
    split at h
    next => cases h
    next =>
      split at h
      next => cases h
      next hpairing =>
        refine ⟨fun hx => hlent (.inl hx), fun hspan heven hfaulted => ?_⟩
        rw [State.pairingFailure, if_pos ⟨hspan, heven⟩, if_pos ⟨by rw [hfaulted]; exact nofun, by rw [hfaulted]; exact nofun⟩] at hpairing
        cases hpairing

/-- After the copies of an accepted cohort every partner that is to be lent is not FAULTED. -/
theorem State.cohort_lendable {l : List (Fin 6)} {cohort : Word} (hwf : s.channelsWf) (hl : l.Nodup)
    (h : s.cohortFailure cohort l = none) : ∀ k ∈ l, (l.foldl State.applyCommit s).lendable k := by
  intro k hk hspan
  obtain ⟨hkeeps, hothers, hmodes⟩ := s.applyCommits l hl
  have hpasses := fun i hi => State.commitFailure_none (State.commitFailure_of_cohort h i hi)
  rw [Ne, Channel.faulted_of_trouble (hkeeps.troubles _)]
  by_cases hnamed : evenOf k ∈ l
  · rw [hmodes _ hnamed (hpasses _ hnamed).1] at hspan
    exact (hpasses _ hnamed).2 hspan (isEven_evenOf k)
  · obtain hsame | ⟨hodd, heven, -⟩ := eq_evenOf_or k
    · exact absurd (by rwa [hsame]) hnamed
    · rw [hothers _ hnamed, heven] at hspan
      exact absurd ((hwf.2 k hodd).mpr hspan) (hpasses k hk).1

theorem State.commit_sound (hwf : s.channelsWf) (m : Message) : s.StaysSound (s.commit m).1 := by
  unfold State.commit
  simp only
  split
  · exact .refl s
  · split
    · exact .refl s
    next hnone =>
      exact ((s.applyCommits _ (nodup_namedChannels _)).1.trans
        (State.settlePartners_troubles _ _ (State.cohort_lendable hwf (nodup_namedChannels _) hnone))).stays

end Sys2Proof.Machine
end

section
/-! What every command keeps of the permit and the ledger (R96, R165, R168, R172, R173, R179, R183, R184, R188). -/

namespace Sys2Proof.Machine

variable {s t u v : State} {k : Fin 6} {m : Message}

/-! ### HALT of one channel (R96, R165, R179) -/

theorem State.causePresent_of_no_fault (h : (s.chan k).faultedBy = none) (kind : LedgerKind) :
    s.causePresent (.channel k) kind = false := by
  cases kind <;> simp [State.causePresent, h]

theorem Channel.remembers_kind (c : Channel) (f : ChannelFault) : c.remembers f.kind = (c.faultedBy == some f) := by
  unfold Channel.remembers
  cases c.faultedBy with
  | none => rfl
  | some g => cases f <;> cases g <;> rfl

/-- The fault of the channel is over, with its record and its handed flag. -/
theorem State.haltChannel_sound (s : State) (k : Fin 6) : s.StaysSound (s.haltChannel k) := by
  have h := s.haltChannel_cases k
  generalize s.haltChannel k = t at h
  rintro ⟨⟨hfault, hpermit, howed⟩, hledger⟩
  have hidle : (t.chan k).state = .idle ∧ (t.chan k).faultedBy = none := by
    rw [h.acted k (beq_self_eq_true k)]; exact ⟨rfl, rfl⟩
  have hothers : ∀ i, i ≠ k → t.chan i = s.chan i := fun i hi => h.others i (beq_eq_false_iff_ne.mpr hi)
  have hsafety : t.safety = s.safety := by rw [h.fields]
  have htrip : t.trip = { s.trip with handed := t.trip.handed } := by rw [h.fields]
  have hhanded : ∀ i : Fin 6, t.trip.handed[i] = true → s.trip.handed[i] = true := fun i hi => by
    rw [h.handed, Bool.and_eq_true] at hi
    exact hi.1
  have hunhanded : t.trip.handed[k] = false := by
    rw [h.handed, beq_self_eq_true, Bool.true_and]
    by_cases hk : s.trip.handed[k] = true
    · rw [← (hfault k).1.mp ((hfault k).2 hk) |>.symm, Bool.not_true, Bool.and_false]
    · rw [Bool.eq_false_of_not_eq_true hk, Bool.false_and]
  have hsame : s.SameCauses (fun source kind => source = .channel k ∧ (s.chan k).remembers kind = true) t := by
    refine .of_channels hsafety (by rw [htrip]) (by rw [htrip]) fun i f hif => ?_
    by_cases hi : i = k
    · subst hi
      rw [hidle.2, ← Channel.remembers_kind, Bool.eq_false_of_not_eq_true fun hx => hif ⟨rfl, hx⟩]; rfl
    · rw [hothers i hi]
  refine ⟨⟨fun i => ?_, ?_, howed.congr (fun b => by rw [hsafety]) (by rw [hsafety])⟩, hledger.map h.records (fun r => ?_) fun r hr => ?_⟩
  · by_cases hi : i = k
    · subst hi
      rw [State.faultWf, hidle.1, hidle.2, hunhanded]
      exact ⟨⟨nofun, nofun⟩, nofun⟩
    · rw [State.faultWf, hothers i hi]
      exact ⟨(hfault i).1, fun hi => (hfault i).2 (hhanded i hi)⟩
  · rw [State.permitWf_iff] at hpermit ⊢
    intro hp
    rw [htrip] at hp
    rw [show t.trip.config = s.trip.config by rw [htrip]]
    refine (hpermit hp).of_channels hsafety (by rw [htrip]) fun i hi => ?_
    by_cases hik : i = k
    · rw [hik, hidle.1]; exact nofun
    · rw [hothers i hik]; exact (hpermit hp).channels i (hhanded i hi)
  · split <;> exact ⟨rfl, rfl⟩
  · have hover : s.faultOver (· == k) r = true ↔ r.source = .channel k ∧ (s.chan k).remembers r.kind = true := by
      rw [State.faultOver_iff]; simp
    split
    next h => rw [(hover.mp h).1, State.causePresent_of_no_fault hidle.2]
    next h => rw [hsame.present (mt hover.mpr h), hledger.2.2 r hr]

/-! ### ENGINE_RESET (R188) -/

/-- A channel's record as step 1 of ENGINE_RESET leaves it: STANDING when it is of a stall or an overflow. -/
def LedgerRecord.stands (l : List (Fin 6)) (r : LedgerRecord) : LedgerRecord :=
  { r with active := r.active && !l.any fun k => (r.source == .channel k) && (r.kind == .stall || r.kind == .overflow) }

theorem LedgerRecord.stands_nil : LedgerRecord.stands [] = id := funext fun r => by simp [LedgerRecord.stands]

theorem LedgerRecord.stands_cons (k : Fin 6) (l : List (Fin 6)) (r : LedgerRecord) : (r.stands [k]).stands l = r.stands (k :: l) := by
  simp only [LedgerRecord.stands, List.any_cons, List.any_nil, Bool.or_false, Bool.not_or, Bool.and_assoc]

theorem State.standChannel_eq (s : State) (k : Fin 6) :
    s.standChannel k = { s with ledger := { s.ledger with records := s.ledger.records.map (LedgerRecord.stands [k]) } } := by
  rw [State.standChannel, State.setCondition_eq, State.setCondition_eq, List.map_map]
  refine congrArg (fun l => ({ s with ledger := { s.ledger with records := l } } : State)) (List.map_congr_left fun r _ => ?_)
  obtain ⟨ordinal, source, kind, active, repeats⟩ := r
  by_cases hsource : source = .channel k
  · subst hsource
    cases kind <;> simp [LedgerRecord.stands]
  · simp [LedgerRecord.stands, hsource]

theorem State.standChannels_eq (l : List (Fin 6)) : ∀ s : State, l.foldl State.standChannel s =
    { s with ledger := { s.ledger with records := s.ledger.records.map (LedgerRecord.stands l) } } := by
  induction l with
  | nil => intro s; rw [LedgerRecord.stands_nil, List.map_id]; rfl
  | cons k l ih =>
    intro s
    rw [List.foldl_cons, ih, State.standChannel_eq]
    simp only [List.map_map, Function.comp_def, LedgerRecord.stands_cons]

theorem State.resetChannels_cases (s : State) : s.resetChannels.safety = s.safety
    ∧ s.resetChannels.trip = { s.trip with handed := Vector.replicate 6 false }
    ∧ s.resetChannels.ledger.records = s.ledger.records.map (LedgerRecord.stands channelNumbers)
    ∧ ∀ k : Fin 6, s.resetChannels.chan k = Channel.reset := by
  have hrefilter := fun t => (State.refilter_cases s t 0).2
  unfold State.resetChannels
  rw [State.standChannels_eq]
  simp only
  rw [hrefilter]
  exact ⟨rfl, rfl, rfl, fun k => Vector.getElem_replicate _⟩

/-- After step 1 no channel is FAULTED or handed over, and no record of a stall or an overflow is ACTIVE. -/
theorem State.resetChannels_sound (s : State) : s.StaysSound s.resetChannels := by
  obtain ⟨hsafety, htrip, hrecords, hchan⟩ := s.resetChannels_cases
  generalize s.resetChannels = t at *
  rintro ⟨⟨-, hpermit, howed⟩, hledger⟩
  have hunhanded : ∀ k : Fin 6, t.trip.handed[k] = false := fun k => by rw [htrip]; exact Vector.getElem_replicate _
  have hsame : s.SameCauses (fun source _ => ∃ k, source = .channel k) t :=
    .of_channels hsafety (by rw [htrip]) (by rw [htrip]) fun k _ h => absurd ⟨k, rfl⟩ h
  refine ⟨⟨fun k => ?_, ?_, howed.congr (fun b => by rw [hsafety]) (by rw [hsafety])⟩,
    hledger.map hrecords (fun _ => ⟨rfl, rfl⟩) fun r hr => ?_⟩
  · rw [State.faultWf, hchan, hunhanded]
    exact ⟨⟨nofun, nofun⟩, nofun⟩
  · rw [State.permitWf_iff] at hpermit ⊢
    intro hp
    rw [htrip] at hp ⊢
    exact (hpermit hp).of_channels hsafety (by rw [htrip]) fun k hk => absurd ((hunhanded k).symm.trans hk) nofun
  · have hactive := hledger.2.2 r hr
    by_cases hsource : ∃ k, r.source = .channel k
    · obtain ⟨k, hk⟩ := hsource
      rw [hk, State.causePresent_of_no_fault (by rw [hchan]; rfl)]
      rw [hk] at hactive
      simp only [LedgerRecord.stands, hk, hactive, List.any_eq_true, Bool.and_eq_false_imp, Bool.not_eq_false']
      intro hcause
      refine ⟨k, mem_channelNumbers k, ?_⟩
      cases hkind : r.kind <;> simp [hkind, State.causePresent] at hcause ⊢
    · rw [hsame.present hsource, ← hactive]
      have hnone : channelNumbers.any (fun k => (r.source == .channel k) && (r.kind == .stall || r.kind == .overflow)) = false := by
        rw [List.any_eq_false]
        exact fun k _ h => hsource ⟨k, by simpa using (Bool.and_eq_true_iff.mp h).1⟩
      rw [LedgerRecord.stands, hnone, Bool.not_false, Bool.and_true]

theorem Permit.afterEngineReset_ne (p : Permit) : p.afterEngineReset ≠ .permitted := by cases p <;> exact nofun

/-- ENGINE_RESET leaves no permit, and the TRIP_INPUT record follows the polarity that it may have reset. -/
theorem State.engineReset_sound (s : State) : s.StaysSound s.engineReset := by
  intro hs
  have hchannels := s.resetChannels_sound hs
  unfold State.engineReset
  simp only
  generalize s.resetChannels = t at hchannels
  have hkept : ∀ (u : State) (p : HostPort) (o : Outbox), u.KeepsTroubles ((u.withPort p).withOut o) := fun u p o =>
    .of_eq rfl rfl rfl fun _ => rfl
  refine (hkept _ _ _).sound (State.setCondition_sound (s := t) hchannels rfl
    ⟨fun _ _ _ => rfl, fun _ _ => rfl, fun _ => rfl, fun h => absurd ⟨rfl, rfl⟩ h, fun _ => rfl⟩ rfl
    ⟨hchannels.1.1, fun hp => absurd hp (Permit.afterEngineReset_ne _), hchannels.1.2.2⟩)

end Sys2Proof.Machine
end

section
/-! Every command keeps the permit safe and the ledger true (R20 to R26). -/

namespace Sys2Proof.Machine

variable {s t u v : State} {k : Fin 6} {m : Message}

/-- The outcome of a body keeps what each of its alternatives keeps. -/
theorem State.KeepsTroubles.fst_ite {c : Prop} [Decidable c] {x y : State × Reply} (hx : c → s.KeepsTroubles x.1)
    (hy : ¬c → s.KeepsTroubles y.1) : s.KeepsTroubles (if c then x else y).1 := by
  split
  · exact hx ‹_›
  · exact hy ‹_›

theorem State.StaysSound.fst_ite {c : Prop} [Decidable c] {x y : State × Reply} (hx : c → s.StaysSound x.1)
    (hy : ¬c → s.StaysSound y.1) : s.StaysSound (if c then x else y).1 := by
  split
  · exact hx ‹_›
  · exact hy ‹_›

/-! ### Chapters 3 to 7 -/

theorem State.setInputs_troubles (m : Message) (s : State) : s.KeepsTroubles (s.setInputs m).1 := by
  have recomputed : ∀ (t : State) (k : Fin 6), t.KeepsTroubles (t.recompute k) := fun t k =>
    .modChan_always t k fun c => (Channel.evaluate_same c _ _).trouble
  have recomputedAll : ∀ t : State, t.KeepsTroubles t.recomputeAll := fun t =>
    .fold_of (admits := fun _ _ => True) (fun u k _ => recomputed u k) (fun _ _ _ _ _ => trivial) _ t fun _ _ => trivial
  have configured : ∀ f, s.KeepsTroubles (s.withInputs f) := fun f => .of_eq rfl rfl rfl fun _ => rfl
  exact .fst_ite (fun _ => .refl s) fun _ => (configured _).trans (recomputedAll _)

theorem State.stage_troubles (s : State) (k : Fin 6) (write : ChannelConfig → Option ChannelConfig) :
    s.KeepsTroubles (s.stage k write).1 := by
  have staged : ∀ x, s.KeepsTroubles (s.modChan k ({ · with staged := x })) := fun x => .modChan_always s k (by exact fun _ => rfl)
  refine .fst_ite (fun _ => .refl s) fun _ => ?_
  split
  · exact staged _
  · exact .refl s

/-- START acts on channels that are IDLE or COMPLETE alone. -/
theorem State.start_troubles (m : Message) (s : State) : s.KeepsTroubles (s.start m).1 := by
  refine .fst_ite (fun _ => .refl s) fun _ => .fst_ite (fun hfails => ?_) fun _ => .refl s
  refine .fold_unfaulted (fun t k hk => .modChan t k (Channel.start_trouble hk)) _ s fun k hk hfaulted => ?_
  have hstarts := (maskOf_eq_zero _ _).mp hfails k (mem_namedChannels.mp hk)
  rw [State.startFails, hfaulted] at hstarts
  cases hstarts

/-- RESTART acts on QUENCHED channels alone. -/
theorem State.restart_troubles (m : Message) (s : State) : s.KeepsTroubles (s.restart m).1 := by
  refine .fst_ite (fun _ => .refl s) fun _ => .fst_ite (fun hfails => ?_) fun _ => .refl s
  refine .fold_unfaulted (fun t k hk => .modChan t k (Channel.returnToRunning_trouble hk)) _ s fun k hk hfaulted => ?_
  have hquenched := (maskOf_eq_zero _ _).mp hfails k (mem_namedChannels.mp hk)
  rw [State.notQuenched, hfaulted] at hquenched
  cases hquenched

/-- QUENCH acts on RUNNING channels alone. -/
theorem State.quench_troubles (m : Message) (s : State) : s.KeepsTroubles (perChannel State.quenchLegal State.enterQuenched m s).1 := by
  refine .fst_ite (fun _ => .refl s) fun _ => .fold_unfaulted (fun t k hk => State.enterQuenched_troubles hk) _ s fun k hk hfaulted => ?_
  have hlegal := (List.mem_filter.mp hk).2
  rw [State.quenchLegal, hfaulted] at hlegal
  cases hlegal

theorem State.halt_sound (m : Message) (s : State) : s.StaysSound (perChannel State.haltLegal State.haltChannel m s).1 :=
  .fst_ite (fun _ => .refl s) fun _ => .fold State.haltChannel_sound _ s

/-! ### Chapter 8: the line table alone -/

theorem State.KeepsTroubles.lines {x : LineMatrix} : s.KeepsTroubles (s.withMatrix x) := .of_eq rfl rfl rfl fun _ => rfl

theorem State.setOwner_troubles (s : State) (n : Fin 12) (o : Owner) : s.KeepsTroubles (s.setOwner n o) :=
  .ite (fun _ => State.KeepsTroubles.lines.trans .lines) fun _ => .lines

theorem State.bindLine_troubles (m : Message) (s : State) : s.KeepsTroubles (s.bindLine m).1 := by
  unfold State.bindLine
  split
  · exact .fst_ite (fun _ => .fst_ite (fun _ => .refl s) fun _ => .fst_ite (fun _ => .refl s) fun _ =>
      .fst_ite (fun _ => .refl s) fun _ => .fst_ite (fun _ => .refl s) fun _ => s.setOwner_troubles _ _) fun _ => .refl s
  · exact .refl s

theorem State.unbind_troubles (s : State) (n : Fin 12) : s.KeepsTroubles (s.unbind n) := by
  have cleared : s.KeepsTroubles ((s.setOwner n .nobody).clearLine n) := (s.setOwner_troubles n .nobody).trans .lines
  exact .ite (fun _ => cleared.trans .lines) fun _ => cleared

theorem State.unbindLine_troubles (m : Message) (s : State) : s.KeepsTroubles (s.unbindLine m).1 := by
  unfold State.unbindLine
  split
  · exact .fst_ite (fun _ => .fst_ite (fun _ => .refl s) fun _ => .fst_ite (fun _ => .refl s) fun _ =>
      .fst_ite (fun _ => .refl s) fun _ => .fst_ite (fun _ => .refl s) fun _ => s.unbind_troubles _) fun _ => .refl s
  · exact .refl s

theorem State.shapeLine_troubles (m : Message) (s : State) : s.KeepsTroubles (s.shapeLine m).1 := by
  unfold State.shapeLine
  split
  · exact .fst_ite (fun _ => .fst_ite (fun _ => .refl s) fun _ => .fst_ite (fun _ => .refl s) fun _ => .lines) fun _ => .refl s
  · exact .refl s

theorem State.repair_troubles (s : State) (j : Fin 6) (pairing : Bool) (gap : Byte) : s.KeepsTroubles (s.repair j pairing gap) := by
  have paired : s.KeepsTroubles ((s.clearLine (oddLine j)).setPair j ⟨true, gap, none⟩) := State.KeepsTroubles.lines.trans .lines
  unfold State.repair
  split
  · exact .ite (fun _ => paired.trans .lines) fun _ => paired
  · exact .lines
  · exact .lines
  · exact .refl s

theorem State.shapePair_troubles (m : Message) (s : State) : s.KeepsTroubles (s.shapePair m).1 := by
  unfold State.shapePair
  split
  · exact .fst_ite (fun _ => .fst_ite (fun _ => .refl s) fun _ => .fst_ite (fun _ => .refl s) fun _ =>
      .fst_ite (fun _ => .refl s) fun _ => .fst_ite (fun _ => .refl s) fun _ => s.repair_troubles _ _ _) fun _ => .refl s
  · exact .refl s

theorem State.driveLines_troubles (m : Message) (s : State) : s.KeepsTroubles (s.driveLines m).1 :=
  .fst_ite (fun _ => .refl s) fun _ => .of_matrix (s.driveLines_cases (m.word 0)).1

/-! ### Chapters 9 and 10 -/

/-- SET_TRIP is refused when it would find an enabled cause present while PERMITTED. -/
theorem State.setTrip_sound (m : Message) (s : State) : s.StaysSound (s.setTrip m).1 := by
  unfold State.setTrip
  split
  next c _ =>
    refine .fst_ite (fun _ => .refl s) fun hcauses hs => State.configureTrip_sound hs fun hp => ?_
    exact Decidable.byContradiction fun h => hcauses ⟨hp, h⟩
  next => exact .refl s

theorem State.resume_sound (s : State) : s.StaysSound s.resume.1 :=
  .fst_ite (fun _ => .refl s) fun hp => .fst_ite (fun _ => .refl s) fun hcauses hs =>
    State.grant_sound hs hp (Decidable.not_not.mp hcauses)

theorem State.ackFault_sound (s : State) : s.StaysSound s.ackFault.1 :=
  .fst_ite (fun _ => .refl s) fun _ hs => ⟨hs.1, hs.2.sublist List.eraseP_sublist fun _ _ => rfl⟩

theorem State.raiseSeal_troubles (s : State) (level : BitVec 2) : s.KeepsTroubles (s.raiseSeal level).1 :=
  .fst_ite (fun _ => .refl s) fun _ => .of_eq rfl rfl rfl fun _ => rfl

/-! ### Every command -/

variable {c : Instr} {f : CommandForm} {body : Message → State → State × Reply}

theorem engineCommand_sound (h : engineCommand c = some (f, body)) (m : Message) (hwf : s.channelsWf) : s.StaysSound (body m s).1 := by
  cases c <;> cases h
  case ping | identify | readStatus | readInputs | readConfig | readChannel | readLines | readTrip => exact .refl s
  case setInputs => exact (s.setInputs_troubles m).stays
  case stageMode | stageTargets | stageTerms | stageGuard | stageMark | clearMarks => exact (s.stage_troubles _ _).stays
  case commit => exact State.commit_sound hwf m
  case readMarks | readRate => exact .fst_ite (fun _ => .refl s) fun _ => .refl s
  case readCaptures => exact .fst_ite (fun _ => .refl s) fun _ => (State.KeepsTroubles.modChan_always s _ (by exact fun _ => rfl)).stays
  case start => exact (s.start_troubles m).stays
  case restart => exact (s.restart_troubles m).stays
  case quench => exact (s.quench_troubles m).stays
  case halt => exact s.halt_sound m
  case bindLine => exact (s.bindLine_troubles m).stays
  case unbindLine => exact (s.unbindLine_troubles m).stays
  case shapeLine => exact (s.shapeLine_troubles m).stays
  case shapePair => exact (s.shapePair_troubles m).stays
  case driveLines => exact (s.driveLines_troubles m).stays
  case setTrip => exact s.setTrip_sound m
  case trip => exact s.softTrip_sound
  case resume => exact s.resume_sound
  case readFaults => exact (State.KeepsTroubles.of_eq rfl rfl rfl fun _ => rfl).stays
  case ackFault => exact s.ackFault_sound
  case sealRaise => exact (s.raiseSeal_troubles _).stays
  case engineReset => exact s.engineReset_sound

theorem State.takeMessage_troubles (s : State) (rest : List Message) : s.KeepsTroubles (s.takeMessage rest) :=
  .of_eq rfl rfl rfl fun _ => rfl

theorem State.admitReply_troubles (s : State) (m : Message) (r : Reply) : s.KeepsTroubles (s.admitReply m r) :=
  .of_eq rfl rfl rfl fun _ => rfl

/-- A step of the Command Engine: the message is taken, the body acts, and the reply is admitted. -/
theorem State.command_sound (h : engineCommand c = some (f, body)) (hwf : s.channelsWf) : s.StaysSound (s.command f body) := by
  obtain hsame | ⟨m, rest, -, -, hstep⟩ := s.command_cases f body
  · rw [hsame]; exact .refl s
  · have taken := (s.takeMessage_troubles rest).stays
    rw [hstep, State.execute]
    split
    · exact taken.trans (State.admitReply_troubles _ _ _).stays
    · exact (taken.trans (engineCommand_sound h m hwf)).trans (State.admitReply_troubles _ _ _).stays

end Sys2Proof.Machine
end

section
/-! Every row, and the part by itself, keeps the permit safe and the ledger true. -/

namespace Sys2Proof.Machine

variable {s t u v : State} {k : Fin 6} {m : Message}

/-! ### Word slots and transactions (R1 to R16) -/

theorem State.withPort_troubles (s : State) (p : HostPort) : s.KeepsTroubles (s.withPort p) := .of_eq rfl rfl rfl fun _ => rfl

theorem State.modPort_sound (s : State) (f : HostPort → HostPort) : s.StaysSound (s.modPort f) := (s.withPort_troubles _).stays

theorem State.writeSlot_sound {act : Transaction → State → State} (h : ∀ (t : Transaction) (s : State), s.StaysSound (act t s))
    (s : State) (index : BitVec 7) : s.StaysSound (s.writeSlot index act) := by
  unfold State.writeSlot
  split
  · exact .ite (fun _ => .ite (fun _ => (s.modPort_sound _).trans (h _ _)) fun _ => s.modPort_sound _) fun _ => .refl s
  · exact .refl s

theorem State.firstWord_sound {act : State → State} (h : ∀ s : State, s.StaysSound (act s)) (t : Transaction) (s : State) :
    s.StaysSound (State.firstWord act t s) :=
  .ite (fun _ => (s.modPort_sound _).trans (h _)) fun _ => s.modPort_sound _

theorem State.bitSlot_sound {act : State → State} (h : ∀ s : State, s.StaysSound (act s)) (s : State) (index : BitVec 7)
    (w : Word) (b : Nat) : s.StaysSound (s.bitSlot index w b act) := by
  refine .ite (fun _ => State.writeSlot_sound (fun t s => ?_) s index) fun _ => .refl s
  unfold State.firstWordBit
  split
  · exact .ite (fun _ => (s.modPort_sound _).trans (h _)) fun _ => s.modPort_sound _
  · exact s.modPort_sound _

theorem State.readSlot_sound {finish : State → SlotOutcome → State} (h : ∀ (s : State) (o : SlotOutcome), s.StaysSound (finish s o))
    (s : State) (index : BitVec 7) (phase : SlotPhase) (decide : Transaction → State → Slot) :
    s.StaysSound (s.readSlot index phase decide finish) := by
  unfold State.readSlot
  split
  · refine .ite (fun _ => ?_) fun _ => .refl s
    simp only
    split
    · exact s.modPort_sound _
    · exact .refl s
    · exact ((s.modPort_sound _).trans (State.modPort_sound _ _)).trans (h _ _)
  · exact .refl s

/-- A committed message is a sign of life of the host (R10, R165, R170). -/
theorem State.assemble_sound (s : State) (m : Message) : s.StaysSound (s.assemble m) :=
  .ite (fun _ => (s.modPort_sound _).trans (State.signOfLife_sound _)) fun _ => s.modPort_sound _

theorem State.pushHead_sound (w : Word) (s : State) : s.StaysSound (s.pushHead w) :=
  .ite (fun _ => s.modPort_sound _) fun _ => .trans (.ite (fun _ => s.modPort_sound _) fun _ => .refl s) (State.assemble_sound _ _)

theorem State.pushBody_sound (w : Word) (s : State) : s.StaysSound (s.pushBody w) := by
  unfold State.pushBody
  split
  · exact s.assemble_sound _
  · exact s.modPort_sound _

theorem State.finishPopHead_sound (s : State) (o : SlotOutcome) : s.StaysSound (s.finishPopHead o) := by
  have popped : ∀ (p : HostPort) (x : Outbox), s.KeepsTroubles ((s.withPort p).withOut x) := fun p x => .of_eq rfl rfl rfl fun _ => rfl
  unfold State.finishPopHead
  split
  · exact .refl s
  · exact s.modPort_sound _
  · split
    · exact (popped _ _).stays
    · exact .refl s

theorem State.finishPopBody_sound (s : State) (o : SlotOutcome) : s.StaysSound (s.finishPopBody o) := by
  cases o with
  | void => exact .refl s
  | refuses | hands => exact s.modPort_sound _

theorem State.finishLinkCounts_sound (s : State) (o : SlotOutcome) : s.StaysSound (s.finishLinkCounts o) := by
  cases o with
  | void | refuses => exact .refl s
  | hands => exact s.modPort_sound _

/-! ### Pins and due occurrences (R32, R161) -/

theorem State.Sound.of_reset (hchan : ∀ k : Fin 6, s.chan k = Channel.reset) (htrip : s.trip = TripUnit.reset)
    (hledger : s.ledger = ⟨[], false⟩) (howed : s.owedWf) : s.Sound := by
  refine ⟨⟨fun k => ?_, fun hp => ?_, howed⟩, ?_⟩
  · rw [State.faultWf, hchan, htrip, show TripUnit.reset.handed[k] = false from Vector.getElem_replicate _]
    exact ⟨⟨nofun, nofun⟩, nofun⟩
  · rw [htrip] at hp
    cases hp
  · rw [State.ledgerWf, hledger]
    exact ⟨Nat.zero_le _, .nil, nofun⟩

theorem State.quiet.trip (h : s.quiet) : s.trip = TripUnit.reset ∧ s.ledger = ⟨[], false⟩ := by
  obtain ⟨-, -, -, -, -, -, -, htrip, hledger, -⟩ := h
  exact ⟨htrip, hledger⟩

theorem State.quiet.sound (h : s.quiet) : s.Sound :=
  .of_reset h.chan h.trip.1 h.trip.2
    ⟨fun b hb => absurd ((h.ovl b).1.symm.trans hb) nofun, fun hs => absurd (h.supplyOk.1.symm.trans hs) nofun⟩

/-- When initialisation ends an input owes its assertion when it is found at its active level (R161). -/
theorem State.initialisationComplete_sound (h : s.quiet) :
    (((s.withInputs s.inputs.settle).withSafety (s.safety.settle s.trip.config.tripInActiveHigh)).withPower
      { s.power with ready := true }).Sound := by
  have howes : ∀ (i : SafetyInput) (level : Bool), (i.settle level).owed = true → (i.settle level).input.filtered = level :=
    fun i level hi => beq_iff_eq.mp hi
  refine .of_reset h.chan h.trip.1 h.trip.2 ⟨fun b => ?_, howes _ false⟩
  show (tabulate3 fun b => s.safety.ovl[b].settle true)[b].owed = true →
    (tabulate3 fun b => s.safety.ovl[b].settle true)[b].input.filtered = true
  rw [tabulate3_getElem]
  exact howes _ true

/-- While the part is ready a pin's change reaches no filtered level. -/
theorem SafetyInput.change_reading (i : SafetyInput) (level : Bool) : (i.change true level).reading = i.reading := by
  rw [SafetyInput.change, FilteredInput.change_ready]; rfl

theorem execSafetyInputChange_sound (h : s.quietUnlessReady) (pin : SafetyPin) (level : Bool) :
    ∃ t, execSafetyInputChange pin level s = .next t ∧ s.StaysSound t := by
  cases hready : s.power.ready with
  | false =>
    obtain ⟨t, ht, hquiet⟩ := (h hready).execSafetyInputChange hready pin level
    exact ⟨t, ht, fun _ => hquiet.sound⟩
  | true =>
    refine ⟨_, rfl, State.KeepsTroubles.stays ?_⟩
    simp only [hready]
    cases pin with
    | tripIn => exact ⟨SafetyInput.change_reading _ _, fun _ => rfl, rfl, rfl, rfl, rfl, id, rfl, fun _ => rfl⟩
    | ovl b =>
      refine ⟨rfl, fun a => ?_, rfl, rfl, rfl, rfl, id, rfl, fun _ => rfl⟩
      rw [State.withSafety_safety, vector_set_getElem]
      split
      next ha => rw [SafetyInput.change_reading, ha]
      next => rfl
    | supplyOk => exact ⟨rfl, fun _ => rfl, SafetyInput.change_reading _ _, rfl, rfl, rfl, id, rfl, fun _ => rfl⟩

/-- A row of power and reset leads to a state at its power-on values, or ends initialisation. -/
theorem exec_powerRow_sound {c : Instr} (hc : Instr.isPowerRow c = true) (h : s.quietUnlessReady) (hs : s.Sound)
    (he : exec c s = .next t) : t.Sound := by
  have powered : ∀ p : Power, s.KeepsTroubles (s.withPower p) := fun p => .of_eq rfl rfl rfl fun _ => rfl
  cases c <;> cases hc <;> cases he
  case powerOnReset | rstnReset | vddLoss => exact (s.powerOnValues_quiet _).sound
  case rstnRelease => exact (powered _).sound hs
  case initialisationComplete =>
    split
    next hinit =>
      simp only [State.initialising, Bool.and_eq_true, Bool.not_eq_true'] at hinit
      exact State.initialisationComplete_sound (h hinit.2)
    next => exact hs

theorem State.setLogical_troubles (s : State) (n : Fin 12) (active : Bool) (pulse : Option Nat) :
    s.KeepsTroubles (s.setLogical n active pulse) := .of_matrix (s.setLogical_cases n active pulse).1

/-- A stall timer that runs is that of a RUNNING channel (R97). -/
theorem State.stallDue_unfaulted (hwf : s.channelsWf) (hdue : s.stallDue k = true) : (s.chan k).state ≠ .faulted := by
  obtain ⟨-, -, -, -, hstall, -⟩ := hwf.1 k
  have hleft : (s.chan k).stallLeft = some 0 := beq_iff_eq.mp (Bool.and_eq_true_iff.mp hdue).1
  rw [(hstall (by rw [hleft]; rfl)).1]
  exact nofun

/-! ### Every row -/

/-- The rows of the Host Port, of the pins and of an instant. -/
theorem exec_outsideEngine_sound {c : Instr} (hc : engineCommand c = none) (hu : c ≠ .unknownKind) (hp : Instr.isPowerRow c = false)
    (h : s.quietUnlessReady) (hwf : s.channelsWf) : ∃ t, exec c s = .next t ∧ s.StaysSound t := by
  have inputs : ∀ (s : State) (x : FrontEnd), s.KeepsTroubles (s.withInputs x) := fun s x => .of_eq rfl rfl rfl fun _ => rfl
  cases c
  case powerOnReset | rstnReset | initialisationComplete | rstnRelease | vddLoss => cases hp
  case unknownKind => exact absurd rfl hu
  case pushHead w => exact ⟨_, rfl, s.writeSlot_sound (fun _ => State.pushHead_sound w) _⟩
  case pushBody w => exact ⟨_, rfl, s.writeSlot_sound (fun _ => State.pushBody_sound w) _⟩
  case popHead p => exact ⟨_, rfl, State.readSlot_sound State.finishPopHead_sound s _ p _⟩
  case popBody p => exact ⟨_, rfl, State.readSlot_sound State.finishPopBody_sound s _ p _⟩
  case linkCountsRead p => exact ⟨_, rfl, State.readSlot_sound State.finishLinkCounts_sound s _ p _⟩
  case discardAssembly w | discardCiq w | clearFramingSticky w | clearNoticeLostSticky w =>
    exact ⟨_, rfl, State.bitSlot_sound (fun t => t.modPort_sound _) s _ w _⟩
  case discardRnq w =>
    have emptied : ∀ (t : State) (p : HostPort) (o : Outbox), t.KeepsTroubles ((t.withPort p).withOut o) := fun t p o =>
      .of_eq rfl rfl rfl fun _ => rfl
    exact ⟨_, rfl, State.bitSlot_sound (fun t => (emptied t _ _).stays) s _ w _⟩
  case attnMaskWrite w => exact ⟨_, rfl, s.writeSlot_sound (State.firstWord_sound fun t => t.modPort_sound _) _⟩
  case ignoredRegisterWrite i w =>
    exact ⟨_, rfl, .ite (fun _ => s.writeSlot_sound (State.firstWord_sound .refl) i) fun _ => .refl s⟩
  case transactionStart b =>
    refine ⟨_, rfl, ?_⟩
    split
    · exact .refl s
    · exact (s.modPort_sound _).trans (State.modPort_sound _ _)
  case transactionEnd =>
    refine ⟨_, rfl, ?_⟩
    split
    · exact s.modPort_sound _
    · exact .refl s
  case countInputChange | dinChange => exact ⟨_, rfl, (inputs s _).stays⟩
  case safetyInputChange p l => exact execSafetyInputChange_sound h p l
  case tripInAssert => exact ⟨_, rfl, .ite (fun hasserts hs => State.tripInAssert_sound hs hasserts) fun _ => .refl s⟩
  case overloadAssert b => exact ⟨_, rfl, .ite (fun hasserts hs => State.overloadAssert_sound hs hasserts) fun _ => .refl s⟩
  case supplyLoss => exact ⟨_, rfl, .ite (fun hasserts hs => State.supplyLoss_sound hs hasserts) fun _ => .refl s⟩
  case watchExpiry => exact ⟨_, rfl, .ite (fun _ hs => State.watchExpiry_sound hs) fun _ => .refl s⟩
  case tripInRelease => exact ⟨_, rfl, .ite (fun hreleases hs => State.tripInRelease_sound hs hreleases) fun _ => .refl s⟩
  case overloadRelease b => exact ⟨_, rfl, .ite (fun hreleases hs => State.overloadRelease_sound hs hreleases) fun _ => .refl s⟩
  case supplyReturn => exact ⟨_, rfl, .ite (fun hreleases hs => State.supplyReturn_sound hs hreleases) fun _ => .refl s⟩
  case gapEnd j => exact ⟨_, rfl, .ite (fun _ => State.KeepsTroubles.lines.stays) fun _ => .refl s⟩
  case pulseEnd n => exact ⟨_, rfl, .ite (fun _ => (s.setLogical_troubles n _ _).stays) fun _ => .refl s⟩
  case stallExpiry k =>
    exact ⟨_, rfl, .ite (fun hdue => State.channelFault_sound (State.stallDue_unfaulted hwf hdue) _) fun _ => .refl s⟩
  case windowEnd k =>
    refine ⟨_, rfl, ?_⟩
    split
    · exact (s.windowEnd_troubles k _).stays
    · exact .refl s
  case countFilterAccept pins => exact ⟨_, rfl, (inputs s _).stays.trans (.fold (State.takeSteps_sound _ _) _ _)⟩
  case dinFilterAccept pins =>
    exact ⟨_, rfl, .ite (fun _ => (inputs s _).stays.trans (.fold (fun t k => (t.evaluateChannel_troubles _ k).stays) _ _))
      fun _ => .refl s⟩
  all_goals cases hc

theorem execUnknownKind_sound (s : State) : ∃ t, execUnknownKind s = .next t ∧ s.StaysSound t := by
  refine ⟨_, rfl, ?_⟩
  split
  · exact .ite (fun _ => .refl s) fun _ => ((s.takeMessage_troubles _).trans (State.admitReply_troubles _ _ _)).stays
  · exact .refl s

theorem exec_sound {c : Instr} (h : s.quietUnlessReady) (hwf : s.channelsWf) (hs : s.Sound) (he : exec c s = .next t) : t.Sound := by
  have of_next : (∃ u, exec c s = .next u ∧ s.StaysSound u) → t.Sound := fun ⟨u, hu, hsound⟩ => by
    obtain rfl : u = t := by rw [hu] at he; cases he; rfl
    exact hsound hs
  cases hc : engineCommand c with
  | some x => exact of_next ⟨_, exec_engineCommand hc s, State.command_sound hc hwf⟩
  | none =>
    by_cases hu : c = .unknownKind
    · subst hu
      exact of_next (execUnknownKind_sound s)
    · cases hp : Instr.isPowerRow c with
      | true => exact exec_powerRow_sound hp h hs he
      | false => exact of_next (exec_outsideEngine_sound hc hu hp h hwf)

/-! ### The part by itself (R23, R32) -/

theorem Channel.elapse_trouble (c : Channel) (d : Nat) (frozen : Bool) : (c.elapse d frozen).trouble = c.trouble := by
  cases frozen <;> rfl

theorem State.elapse_troubles (s : State) (d : Nat) : s.KeepsTroubles (s.elapse d) :=
  ⟨rfl, fun b => by rw [State.elapse_ovl]; rfl, rfl, rfl, rfl, rfl, id, rfl,
    fun k => by rw [State.elapse_chan]; exact Channel.elapse_trouble _ _ _⟩

theorem State.goOn_troubles (s : State) : s.KeepsTroubles s.goOn := by
  have ended : s.KeepsTroubles s.endInstant := .of_eq rfl rfl rfl fun _ => rfl
  have waits : ∀ (t : State) (q : List Instr), t.KeepsTroubles (t.withPending q) := fun t q => .of_eq rfl rfl rfl fun _ => rfl
  have begins : ∀ t : State, t.KeepsTroubles t.beginInstant := fun t => .of_eq rfl rfl rfl fun _ => rfl
  have passes : ∀ t : State, t.KeepsTroubles t.passTime := fun t => by
    unfold State.passTime
    split
    · exact ((t.elapse_troubles _).trans (begins _)).trans (waits _ _)
    · exact .refl t
  exact ended.trans (.ite (fun _ => waits _ _) fun _ => .ite (fun _ => waits _ _) fun _ => passes _)

/-- Settles O59: each row of the table and each step of the part by itself keeps the permit safe and the ledger true. -/
theorem permitAndLedgerStayTrue : Obligations.PermitAndLedgerStayTrue := by
  intro s t hquiet hwf htrip hledger hstep
  obtain ⟨c, rest, -, he⟩ | ⟨-, rfl⟩ := step_cases hstep
  · have waits : s.KeepsTroubles (s.withPending rest) := .of_eq rfl rfl rfl fun _ => rfl
    exact exec_sound (s := s.withPending rest) hquiet hwf (waits.sound ⟨htrip, hledger⟩) he
  · exact s.goOn_troubles.sound ⟨htrip, hledger⟩

end Sys2Proof.Machine
end

section
/-! The fields of a word that is made up of fields: what a field or a bit of `place`, `placeFlag`, `placeFlags`, `placeEach`
and `placeNat` reads, at its own position and outside it. The positions are compared by `simp (disch := omega)`. -/

namespace Sys2Proof.Machine

/-! ### A field and a flag -/

@[simp] theorem extract_place_self {n lo : Nat} (x : BitVec n) (h : lo + n ≤ 32) : (place lo x).extractLsb' lo n = x := by
  apply BitVec.eq_of_getLsbD_eq
  intro i hi
  rw [BitVec.getLsbD_extractLsb', getLsbD_place]
  simp [hi, show lo + i < 32 by omega]

@[simp] theorem getLsbD_place_outside {n lo i : Nat} (x : BitVec n) (h : i < lo ∨ lo + n ≤ i) :
    (place lo x).getLsbD i = false := by
  rw [getLsbD_place]
  rcases h with h | h
  · simp [show ¬lo ≤ i by omega]
  · rw [BitVec.getLsbD_of_ge x (i - lo) (by omega), Bool.and_false]

@[simp] theorem extract_place_outside {n lo a w : Nat} (x : BitVec n) (h : a + w ≤ lo ∨ lo + n ≤ a) :
    (place lo x).extractLsb' a w = 0#w :=
  extractLsb'_eq_zero fun i _ => getLsbD_place_outside x (by omega)

@[simp] theorem getLsbD_placeFlag_self {lo : Nat} (b : Bool) (h : lo < 32) : (placeFlag lo b).getLsbD lo = b := by
  rw [placeFlag, getLsbD_place]
  simp [h]

@[simp] theorem getLsbD_placeFlag_outside {lo i : Nat} (b : Bool) (h : i ≠ lo) : (placeFlag lo b).getLsbD i = false :=
  getLsbD_place_outside _ (by omega)

@[simp] theorem extract_placeFlag_outside {lo a w : Nat} (b : Bool) (h : a + w ≤ lo ∨ lo < a) :
    (placeFlag lo b).extractLsb' a w = 0#w :=
  extract_place_outside _ (by omega)

/-! ### A flag for each number below n -/

@[simp] theorem getLsbD_placeFlags_self {n lo : Nat} (f : Fin n → Bool) (k : Fin n) (h : lo + n ≤ 32) :
    (placeFlags lo ((List.finRange n).map f)).getLsbD (lo + k.val) = f k := by
  rw [getLsbD_placeFlags]
  simp [show lo + k.val < 32 by omega]

@[simp] theorem getLsbD_placeFlags_zero {n : Nat} (f : Fin n → Bool) (k : Fin n) (h : n ≤ 32) :
    (placeFlags 0 ((List.finRange n).map f)).getLsbD k.val = f k := by
  simpa using getLsbD_placeFlags_self (lo := 0) f k (by omega)

@[simp] theorem getLsbD_placeFlags_outside {n lo i : Nat} (f : Fin n → Bool) (h : i < lo ∨ lo + n ≤ i) :
    (placeFlags lo ((List.finRange n).map f)).getLsbD i = false := by
  rw [getLsbD_placeFlags]
  rcases h with h | h
  · simp [show ¬lo ≤ i by omega]
  · simp [List.getD_eq_getElem?_getD, show n ≤ i - lo by omega]

@[simp] theorem extract_placeFlags_outside {n lo a w : Nat} (f : Fin n → Bool) (h : a + w ≤ lo ∨ lo + n ≤ a) :
    (placeFlags lo ((List.finRange n).map f)).extractLsb' a w = 0#w :=
  extractLsb'_eq_zero fun i _ => getLsbD_placeFlags_outside f (by omega)

/-! ### A code for each number below n -/

theorem getLsbD_placeEach_outside_list {w i : Nat} (l : List (BitVec w)) : ∀ lo, i < lo ∨ lo + w * l.length ≤ i →
    (placeEach lo w l).getLsbD i = false := by
  induction l with
  | nil => intro lo h; simp [placeEach]
  | cons x l ih =>
    intro lo h
    rw [List.length_cons, Nat.mul_succ] at h
    rw [placeEach, BitVec.getLsbD_or, getLsbD_place_outside x (by omega), ih _ (by omega), Bool.or_false]

theorem extract_placeEach_list {w : Nat} (l : List (BitVec w)) : ∀ (lo k : Nat) (hk : k < l.length), lo + w * l.length ≤ 32 →
    (placeEach lo w l).extractLsb' (lo + w * k) w = l[k] := by
  induction l with
  | nil => intro lo k hk; cases hk
  | cons x l ih =>
    intro lo k hk h
    rw [List.length_cons, Nat.mul_succ] at h
    rw [placeEach, BitVec.extractLsb'_or]
    cases k with
    | zero =>
      have hrest : (placeEach (lo + w) w l).extractLsb' lo w = 0#w :=
        extractLsb'_eq_zero fun i hi => getLsbD_placeEach_outside_list l _ (by omega)
      simp [hrest, extract_place_self x (lo := lo) (by omega)]
    | succ k =>
      have hnext : lo + w * (k + 1) = lo + w + w * k := by rw [Nat.mul_succ]; omega
      rw [hnext, extract_place_outside x (by omega), ih (lo + w) k (by simpa using hk) (by omega), BitVec.zero_or,
        List.getElem_cons_succ]

@[simp] theorem extract_placeEach_self {n w : Nat} (f : Fin n → BitVec w) (k : Fin n) (h : w * n ≤ 32) :
    (placeEach 0 w ((List.finRange n).map f)).extractLsb' (w * k.val) w = f k := by
  simpa using extract_placeEach_list ((List.finRange n).map f) 0 k.val (by simp) (by simpa using h)

@[simp] theorem getLsbD_placeEach_outside {n w lo i : Nat} (f : Fin n → BitVec w) (h : i < lo ∨ lo + w * n ≤ i) :
    (placeEach lo w ((List.finRange n).map f)).getLsbD i = false :=
  getLsbD_placeEach_outside_list _ _ (by simpa using h)

@[simp] theorem extract_placeEach_outside {n w lo a v : Nat} (f : Fin n → BitVec w) (h : a + v ≤ lo ∨ lo + w * n ≤ a) :
    (placeEach lo w ((List.finRange n).map f)).extractLsb' a v = 0#v :=
  extractLsb'_eq_zero fun i _ => getLsbD_placeEach_outside f (by omega)

/-! ### The index lists -/

theorem channelNumbers_eq : channelNumbers = List.finRange 6 := by decide
theorem lineNumbers_eq : lineNumbers = List.finRange 12 := by decide
theorem pairNumbers_eq : pairNumbers = List.finRange 6 := by decide
theorem bankNumbers_eq : bankNumbers = List.finRange 3 := by decide
theorem dinNumbers_eq : dinNumbers = List.finRange 8 := by decide
theorem countPinNumbers_eq : countPinNumbers = List.finRange 12 := by decide

/-! The lines and the pairs that a second word holds are numbered from its lowest field. -/

theorem lines_high {α : Type} (f : Fin 12 → α) :
    (lineNumbers.drop 8).map f = (List.finRange 4).map fun i => f ⟨i.val + 8, by omega⟩ := rfl

theorem pairs_high {α : Type} (f : Fin 6 → α) :
    (pairNumbers.drop 4).map f = (List.finRange 2).map fun i => f ⟨i.val + 4, by omega⟩ := rfl

end Sys2Proof.Machine
end

section
/-! The words of IDENTIFY, READ_STATUS, READ_INPUTS, READ_LINES and READ_TRIP (R35, R36, R56, R157, R174). -/

namespace Sys2Proof.Machine

variable (s : State)

theorem State.identifyBody_eq : s.identifyBody = [0x00010612#32, 0x080C0600#32 ||| (if s.power.cause = .power then 1#32 else 2#32)] := by
  unfold State.identifyBody
  cases s.power.cause <;> rfl

/-! ### READ_STATUS -/

/-- Word 0 of READ_STATUS: a state and a pending commit for each channel. -/
theorem statusChannels_fields (state : Fin 6 → BitVec 4) (pending : Fin 6 → Bool) :
    let w := placeEach 0 4 (channelNumbers.map state) ||| placeFlags 24 (channelNumbers.map pending)
    (∀ k : Fin 6, w.extractLsb' (4 * k.val) 4 = state k ∧ w.getLsbD (24 + k.val) = pending k) ∧ w.extractLsb' 30 2 = 0#2 := by
  rw [channelNumbers_eq]
  refine ⟨fun k => ⟨?_, ?_⟩, ?_⟩
  all_goals simp (disch := omega) [BitVec.extractLsb'_or, -BitVec.getLsbD_eq_getElem]

/-- Word 1 of READ_STATUS: the permit, the seal, the ledger and the shut banks. -/
theorem statusDevice_fields (permit level : BitVec 2) (lost supplyLost : Bool) (shut : Fin 3 → Bool) {records : Nat}
    (h : records < 32) :
    let w := place 0 permit ||| place 2 level ||| placeNat 4 records ||| placeFlag 9 lost
      ||| placeFlags 12 (bankNumbers.map shut) ||| placeFlag 15 supplyLost
    w.extractLsb' 0 2 = permit ∧ w.extractLsb' 2 2 = level ∧ (w.extractLsb' 4 5).toNat = records ∧ w.getLsbD 9 = lost
      ∧ w.extractLsb' 10 2 = 0#2 ∧ (∀ b : Fin 3, w.getLsbD (12 + b.val) = shut b) ∧ w.getLsbD 15 = supplyLost
      ∧ w.extractLsb' 16 16 = 0#16 := by
  rw [bankNumbers_eq, placeNat_eq_place (w := 5) 4 h]
  refine ⟨?_, ?_, ?_, ?_, ?_, fun b => ?_, ?_, ?_⟩
  all_goals simp (disch := omega) [BitVec.extractLsb'_or, h, -BitVec.getLsbD_eq_getElem]

/-- Word 3 of READ_STATUS: the ordinal, the sequence and the count of the notices. -/
theorem statusNotices_fields (ordinal : BitVec 16) (sequence : Byte) {count : Nat} (h : count < 32) :
    let w := place 0 ordinal ||| place 16 sequence ||| placeNat 24 count
    w.extractLsb' 0 16 = ordinal ∧ w.extractLsb' 16 8 = sequence ∧ (w.extractLsb' 24 5).toNat = count ∧ w.extractLsb' 29 3 = 0#3 := by
  rw [placeNat_eq_place (w := 5) 24 h]
  refine ⟨?_, ?_, ?_, ?_⟩
  all_goals simp (disch := omega) [BitVec.extractLsb'_or, h]

/-! ### READ_INPUTS -/

theorem FrontEnd.dinLevel_eq (f : FrontEnd) (n : Fin 8) : f.dinLevel n = (f.din[n].input.filtered ^^ f.din[n].invert) := by
  rw [FrontEnd.dinLevel, Bool.bne_eq_xor]

/-- Word 0 of READ_INPUTS: two flags for each discrete input. -/
theorem inputsDins_fields (filtered level : Fin 8 → Bool) :
    let w := placeFlags 0 (dinNumbers.map filtered) ||| placeFlags 8 (dinNumbers.map level)
    (∀ n : Fin 8, w.getLsbD n.val = filtered n ∧ w.getLsbD (8 + n.val) = level n) ∧ w.extractLsb' 16 16 = 0#16 := by
  rw [dinNumbers_eq]
  refine ⟨fun n => ⟨?_, ?_⟩, ?_⟩
  all_goals simp (disch := omega) [BitVec.extractLsb'_or, -BitVec.getLsbD_eq_getElem]

/-- Word 1 of READ_INPUTS: a flag for each count input. -/
theorem inputsCounts_fields (filtered : Fin 12 → Bool) :
    let w := placeFlags 0 (countPinNumbers.map filtered)
    (∀ p : Fin 12, w.getLsbD p.val = filtered p) ∧ w.extractLsb' 12 20 = 0#20 := by
  rw [countPinNumbers_eq]
  refine ⟨fun p => ?_, ?_⟩
  all_goals simp (disch := omega) [-BitVec.getLsbD_eq_getElem]

/-- The i-th held value of channel k is bit 5 * k + i of word 2 of READ_INPUTS. -/
theorem State.heldFlags_bit (k : Fin 6) (i : Fin 5) :
    (placeFlags 0 (channelNumbers.flatMap fun k => (s.chan k).heldFlags)).getLsbD (5 * k.val + i.val)
      = (s.chan k).heldFlags.getD i.val false := by
  rw [getLsbD_placeFlags]
  fin_cases k <;> fin_cases i <;> rfl

theorem State.heldFlags_high :
    (placeFlags 0 (channelNumbers.flatMap fun k => (s.chan k).heldFlags)).extractLsb' 30 2 = 0#2 :=
  extractLsb'_eq_zero fun i hi => by
    rw [getLsbD_placeFlags]
    interval_cases i <;> rfl

/-! ### READ_LINES -/

theorem linesOwners_low (code : Fin 12 → BitVec 4) {n : Fin 12} (h : n.val < 8) :
    (placeEach 0 4 ((lineNumbers.take 8).map code)).extractLsb' (4 * n.val) 4 = code n :=
  extract_placeEach_self (fun i : Fin 8 => code ⟨i.val, by omega⟩) ⟨n.val, h⟩ (by omega)

/-- Word 1 of READ_LINES: the owners of the last four lines, and the logical state of each line. -/
theorem linesOwners_high_fields (code : Fin 12 → BitVec 4) (active : Fin 12 → Bool) :
    let w := placeEach 0 4 ((lineNumbers.drop 8).map code) ||| placeFlags 16 (lineNumbers.map active)
    (∀ n : Fin 12, 8 ≤ n.val → w.extractLsb' (4 * (n.val - 8)) 4 = code n) ∧ (∀ n : Fin 12, w.getLsbD (16 + n.val) = active n)
      ∧ w.extractLsb' 28 4 = 0#4 := by
  rw [lines_high, lineNumbers_eq]
  refine ⟨fun n h => ?_, fun n => ?_, ?_⟩
  · have hcode := extract_placeEach_self (fun i : Fin 4 => code ⟨i.val + 8, by omega⟩) ⟨n.val - 8, by omega⟩ (by omega)
    simp only [Nat.sub_add_cancel h] at hcode
    rw [BitVec.extractLsb'_or, hcode, extract_placeFlags_outside _ (by omega), BitVec.or_zero]
  all_goals simp (disch := omega) [BitVec.extractLsb'_or, -BitVec.getLsbD_eq_getElem]

/-- Word 2 of READ_LINES: the level of each pin, the shut banks and the supply. -/
theorem linesPins_fields (level : Fin 12 → BitVec 2) (shut : Fin 3 → Bool) (supplyLost : Bool) :
    let w := placeEach 0 2 (lineNumbers.map level) ||| placeFlags 24 (bankNumbers.map shut) ||| placeFlag 27 supplyLost
    (∀ n : Fin 12, w.extractLsb' (2 * n.val) 2 = level n) ∧ (∀ b : Fin 3, w.getLsbD (24 + b.val) = shut b)
      ∧ w.getLsbD 27 = supplyLost ∧ w.extractLsb' 28 4 = 0#4 := by
  rw [lineNumbers_eq, bankNumbers_eq]
  refine ⟨fun n => ?_, fun b => ?_, ?_, ?_⟩
  all_goals simp (disch := omega) [BitVec.extractLsb'_or, -BitVec.getLsbD_eq_getElem]

/-- Word 3 of READ_LINES: polarity and pulse of each line, and pairing of each pair. -/
theorem linesShapes_fields (inverted pulse : Fin 12 → Bool) (paired : Fin 6 → Bool) :
    let w := placeFlags 0 (lineNumbers.map inverted) ||| placeFlags 12 (lineNumbers.map pulse) ||| placeFlags 24 (pairNumbers.map paired)
    (∀ n : Fin 12, w.getLsbD n.val = inverted n ∧ w.getLsbD (12 + n.val) = pulse n)
      ∧ (∀ j : Fin 6, w.getLsbD (24 + j.val) = paired j) ∧ w.extractLsb' 30 2 = 0#2 := by
  rw [lineNumbers_eq, pairNumbers_eq]
  refine ⟨fun n => ⟨?_, ?_⟩, fun j => ?_, ?_⟩
  all_goals simp (disch := omega) [BitVec.extractLsb'_or, -BitVec.getLsbD_eq_getElem]

/-- Word 4 of READ_LINES: the safe level of each line, and the gap in progress of each pair. -/
theorem linesSafe_fields (safe : Fin 12 → BitVec 2) (inGap : Fin 6 → Bool) :
    let w := placeEach 0 2 (lineNumbers.map safe) ||| placeFlags 24 (pairNumbers.map inGap)
    (∀ n : Fin 12, w.extractLsb' (2 * n.val) 2 = safe n) ∧ (∀ j : Fin 6, w.getLsbD (24 + j.val) = inGap j)
      ∧ w.extractLsb' 30 2 = 0#2 := by
  rw [lineNumbers_eq, pairNumbers_eq]
  refine ⟨fun n => ?_, fun j => ?_, ?_⟩
  all_goals simp (disch := omega) [BitVec.extractLsb'_or, -BitVec.getLsbD_eq_getElem]

theorem linesGaps_low (gap : Fin 6 → Byte) {j : Fin 6} (h : j.val < 4) :
    (placeEach 0 8 ((pairNumbers.take 4).map gap)).extractLsb' (8 * j.val) 8 = gap j :=
  extract_placeEach_self (fun i : Fin 4 => gap ⟨i.val, by omega⟩) ⟨j.val, h⟩ (by omega)

/-- Word 6 of READ_LINES: the gaps of the last two pairs. -/
theorem linesGaps_high_fields (gap : Fin 6 → Byte) :
    let w := placeEach 0 8 ((pairNumbers.drop 4).map gap)
    (∀ j : Fin 6, 4 ≤ j.val → w.extractLsb' (8 * (j.val - 4)) 8 = gap j) ∧ w.extractLsb' 16 16 = 0#16 := by
  rw [pairs_high]
  refine ⟨fun j h => ?_, ?_⟩
  · have hgap := extract_placeEach_self (fun i : Fin 2 => gap ⟨i.val + 4, by omega⟩) ⟨j.val - 4, by omega⟩ (by omega)
    simpa only [Nat.sub_add_cancel h] using hgap
  · exact extract_placeEach_outside _ (by omega)

/-! ### READ_TRIP -/

/-- The twelve causes of a cause set, in order. -/
theorem State.causesUnder_bits (c : TripConfig) (enabledOnly : Bool) :
    let w := placeFlags 0 (s.causesUnder c enabledOnly)
    w.getLsbD 0 = (s.tripInPresentUnder c.tripInActiveHigh && (!enabledOnly || c.tripInEnable))
      ∧ (∀ b : Fin 3, w.getLsbD (1 + b.val) = (s.overloadPresent b && (!enabledOnly || c.overloadEnable)))
      ∧ w.getLsbD 4 = (s.supplyLost && (!enabledOnly || c.supplyEnable))
      ∧ w.getLsbD 5 = (s.trip.hostLost && (!enabledOnly || decide (c.hostLoss = .trip)))
      ∧ (∀ k : Fin 6, w.getLsbD (6 + k.val) = (decide ((s.chan k).state = .faulted) && (!enabledOnly || s.trip.handed[k])))
      ∧ ∀ a n, 12 ≤ a → w.extractLsb' a n = 0#n := by
  simp only [getLsbD_placeFlags]
  refine ⟨rfl, fun b => ?_, rfl, rfl, fun k => ?_, fun a n ha => ?_⟩
  · fin_cases b <;> rfl
  · fin_cases k <;> rfl
  · exact extractLsb'_eq_zero fun i _ => s.causeSet_high c enabledOnly (by omega)

/-- The causes present, enabled or not. -/
theorem State.presentCauses_bits :
    s.presentCauses.getLsbD 0 = s.tripInPresent ∧ (∀ b : Fin 3, s.presentCauses.getLsbD (1 + b.val) = s.overloadPresent b)
      ∧ s.presentCauses.getLsbD 4 = s.supplyLost ∧ s.presentCauses.getLsbD 5 = s.trip.hostLost
      ∧ (∀ k : Fin 6, s.presentCauses.getLsbD (6 + k.val) = decide ((s.chan k).state = .faulted))
      ∧ ∀ a n, 12 ≤ a → s.presentCauses.extractLsb' a n = 0#n := by
  simpa only [Bool.not_false, Bool.true_or, Bool.and_true, State.presentCauses, State.tripInPresent] using
    s.causesUnder_bits s.trip.config false

/-- Word 0 of READ_TRIP: the permit, freeze, the watch and the causes present. -/
theorem tripDevice_fields (permit : BitVec 2) (frozen watching hostLost : Bool) {units : Nat} (h : units < 256) {causes : Word}
    (hcauses : causes.extractLsb' 12 4 = 0#4) :
    let w := place 0 permit ||| placeFlag 2 frozen ||| placeFlag 3 watching ||| placeFlag 4 hostLost ||| placeNat 8 units
      ||| causes <<< 16
    w.extractLsb' 0 2 = permit ∧ w.getLsbD 2 = frozen ∧ w.getLsbD 3 = watching ∧ w.getLsbD 4 = hostLost
      ∧ w.extractLsb' 5 3 = 0#3 ∧ (w.extractLsb' 8 8).toNat = units ∧ (∀ i j, 16 + i = j → i < 12 → w.getLsbD j = causes.getLsbD i)
      ∧ w.extractLsb' 28 4 = 0#4 := by
  have hlow : ∀ a n : Nat, a + n ≤ 16 → (causes <<< 16).extractLsb' a n = 0#n := fun a n ha =>
    extractLsb'_eq_zero fun i hi => by simp [BitVec.getLsbD_shiftLeft, show a + i < 16 by omega]
  have hhigh : (causes <<< 16).extractLsb' 28 4 = 0#4 := extractLsb'_eq_zero fun i hi => by
    have hbit := congrArg (·.getLsbD i) hcauses
    rw [BitVec.getLsbD_shiftLeft, show 28 + i - 16 = 12 + i by omega]
    simpa [BitVec.getLsbD_extractLsb', hi] using fun _ _ => hbit
  rw [placeNat_eq_place (w := 8) 8 h]
  refine ⟨?_, ?_, ?_, ?_, ?_, ?_, fun i j hj hi => ?_, ?_⟩
  case refine_7 =>
    subst hj
    simp (disch := omega) [show 16 + i < 32 by omega, -BitVec.getLsbD_eq_getElem]
  all_goals simp (disch := omega) [BitVec.extractLsb'_or, hlow, hhigh, h, -BitVec.getLsbD_eq_getElem]

/-- Word 1 of READ_TRIP: the enabled causes and the handed channels. -/
theorem tripCauses_fields {causes : Word} (hcauses : ∀ a n, 12 ≤ a → causes.extractLsb' a n = 0#n) (handed : Fin 6 → Bool) :
    let w := causes ||| placeFlags 16 (channelNumbers.map handed)
    (∀ i < 12, w.getLsbD i = causes.getLsbD i) ∧ w.extractLsb' 12 4 = 0#4 ∧ (∀ k : Fin 6, w.getLsbD (16 + k.val) = handed k)
      ∧ w.extractLsb' 22 10 = 0#10 := by
  have hhigh : ∀ k : Fin 6, causes.getLsbD (16 + k.val) = false := fun k => by
    simpa [BitVec.getLsbD_extractLsb'] using congrArg (·.getLsbD 0) (hcauses (16 + k.val) 1 (by omega))
  rw [channelNumbers_eq]
  refine ⟨fun i hi => ?_, ?_, fun k => ?_, ?_⟩
  all_goals simp (disch := omega) [BitVec.extractLsb'_or, hcauses, hhigh, -BitVec.getLsbD_eq_getElem]

/-- Word 2 of READ_TRIP, the configuration. -/
theorem tripWord_fields (c : TripConfig) :
    let w := tripWord c
    w.getLsbD 0 = c.tripInEnable ∧ w.getLsbD 1 = c.tripInActiveHigh ∧ w.getLsbD 2 = c.overloadEnable
      ∧ w.getLsbD 3 = c.supplyEnable ∧ w.getLsbD 4 = decide (c.policy = .coast) ∧ w.getLsbD 5 = decide (c.hostLoss = .trip)
      ∧ w.extractLsb' 6 2 = 0#2
      ∧ w.extractLsb' 8 3 = (match c.autoChannel with | some k => BitVec.ofNat 3 k.val | none => 7#3)
      ∧ w.extractLsb' 11 5 = 0#5 ∧ w.extractLsb' 16 8 = c.watch ∧ w.extractLsb' 24 8 = 0#8 := by
  have hauto : autoCode c.autoChannel = (match c.autoChannel with | some k => BitVec.ofNat 3 k.val | none => 7#3) := by
    cases c.autoChannel <;> rfl
  rw [← hauto]
  simp only [tripWord]
  refine ⟨?_, ?_, ?_, ?_, ?_, ?_, ?_, ?_, ?_, ?_, ?_⟩
  all_goals simp (disch := omega) [BitVec.extractLsb'_or, -BitVec.getLsbD_eq_getElem]
  · rfl
  · rfl

/-- Word 3 of READ_TRIP, of a withdrawal: ordinal, source and place. -/
theorem lastTripWord_some (l : LastTrip) : lastTripWord (some l) = 0#9 ++ l.source.place ++ 0#1 ++ l.source.code ++ l.ordinal := by
  rw [← place_zero_self (0#9 ++ l.source.place ++ 0#1 ++ l.source.code ++ l.ordinal), lastTripWord]
  simp only [place_append, place_zero, BitVec.zero_or, BitVec.or_zero, BitVec.or_assoc]

/-! ### The bodies -/

theorem State.frozen_any : channelNumbers.any s.frozen
    = decide (∃ k : Fin 6, s.trip.permit = .tripped ∧ s.trip.config.policy = .freeze ∧ (s.chan k).state.live = true) := by
  rw [Bool.eq_iff_iff, List.any_eq_true, decide_eq_true_iff]
  simp only [mem_channelNumbers, true_and, State.frozen_iff]

/-- Settles O20: each word is a word of fields, and reads each of them back. -/
theorem statusWordsReportTheState : Obligations.StatusWordsReportTheState := by
  refine ⟨rfl, fun s hrecords hnotices => ⟨s.identifyBody_eq, ?_⟩, fun s => ?_, fun s => ?_, fun s hwatch => ?_⟩
  · obtain ⟨hchannels, hchannelsUnused⟩ := statusChannels_fields (fun k => (s.chan k).state.code) (fun k => (s.chan k).commitPending)
    obtain ⟨hpermit, hseal, hcount, hlost, hunused, hshut, hsupply, hhigh⟩ :=
      statusDevice_fields s.trip.permit.code s.sealLevel s.ledger.lost s.supplyLost (fun b => s.matrix.shut[b])
        (show s.ledger.records.length < 32 by omega)
    obtain ⟨hordinal, hsequence, hnoticeCount, hnoticeUnused⟩ :=
      statusNotices_fields s.out.ordinal s.out.sequence (show s.out.noticeCount < 32 by omega)
    exact ⟨_, _, _, _, rfl, hchannels, hchannelsUnused, hpermit, hseal, hcount, hlost, hunused, hshut, hsupply, hhigh,
      s.out.lostWord_eq, hordinal, hsequence, hnoticeCount, hnoticeUnused⟩
  · obtain ⟨hdins, hdinsUnused⟩ := inputsDins_fields (fun n => s.inputs.din[n].input.filtered) s.inputs.dinLevel
    obtain ⟨hcounts, hcountsUnused⟩ := inputsCounts_fields (fun p => s.inputs.count[p].filtered)
    exact ⟨_, _, _, rfl, fun n => ⟨(hdins n).1, (hdins n).2.trans (s.inputs.dinLevel_eq n)⟩, hdinsUnused, hcounts, hcountsUnused,
      fun k => ⟨s.heldFlags_bit k 0, s.heldFlags_bit k 1, s.heldFlags_bit k 2, s.heldFlags_bit k 3, s.heldFlags_bit k 4⟩,
      s.heldFlags_high⟩
  · obtain ⟨hownersHigh, hactive, hownersUnused⟩ :=
      linesOwners_high_fields (fun n => (s.line n).owner.code) (fun n => (s.line n).active)
    obtain ⟨hpins, hshut, hsupply, hpinsUnused⟩ :=
      linesPins_fields (fun n => pinLevelCode (s.resolvedPin n)) (fun b => s.matrix.shut[b]) s.supplyLost
    obtain ⟨hshapes, hpaired, hshapesUnused⟩ := linesShapes_fields (fun n => (s.line n).inverted)
      (fun n => (s.line n).pulseLeft.isSome) (fun j => (s.pair j).paired)
    obtain ⟨hsafe, hinGap, hsafeUnused⟩ := linesSafe_fields (fun n => safeCode (s.line n).safe) (fun j => (s.pair j).gapLeft.isSome)
    obtain ⟨hgapsHigh, hgapsUnused⟩ := linesGaps_high_fields (fun j => (s.pair j).gap)
    refine ⟨_, _, _, _, _, _, _, rfl, fun n => ?_, hactive, hownersUnused, fun n => (hpins n).trans ?_, hshut, hsupply, hpinsUnused,
      hshapes, hpaired, hshapesUnused, fun n => (hsafe n).trans ?_, hinGap, hsafeUnused, fun j => ?_, hgapsUnused⟩
    · refine Eq.trans ?_ (show (s.line n).owner.code = _ by cases (s.line n).owner <;> rfl)
      split
      · exact linesOwners_low (fun n => (s.line n).owner.code) ‹_›
      · exact hownersHigh n (by omega)
    · cases s.resolvedPin n <;> rfl
    · cases (s.line n).safe <;> rfl
    · split
      · exact linesGaps_low (fun j => (s.pair j).gap) ‹_›
      · exact hgapsHigh j (by omega)
  · obtain ⟨hp0, hp1, hp4, hp5, hp6, hpHigh⟩ := s.presentCauses_bits
    obtain ⟨he0, he1, he4, he5, he6, heHigh⟩ := s.causesUnder_bits s.trip.config true
    have hceil : ceilDiv (s.trip.watchLeft.getD 0) tenMilliseconds < 256 := by unfold ceilDiv tenMilliseconds at *; omega
    obtain ⟨hpermit, hfrozen, hwatching, hhost, hunused, hunits, hcauses, hhigh⟩ := tripDevice_fields s.trip.permit.code
      (channelNumbers.any s.frozen) s.trip.watchLeft.isSome s.trip.hostLost hceil (hpHigh 12 4 le_rfl)
    obtain ⟨henabled, hgap, hhanded, hhandedUnused⟩ := tripCauses_fields heHigh (fun k => s.trip.handed[k])
    obtain ⟨hc0, hc1, hc2, hc3, hc4, hc5, hc6, hc8, hc11, hc16, hc24⟩ := tripWord_fields s.trip.config
    refine ⟨_, _, _, _, rfl, hpermit.trans ?_, hfrozen.trans s.frozen_any, hwatching, hhost, hunused, hunits,
      (hcauses 0 16 rfl (by omega)).trans hp0,
      fun b => (hcauses (1 + b.val) (17 + b.val) (by omega) (by omega)).trans (hp1 b),
      (hcauses 4 20 rfl (by omega)).trans hp4, (hcauses 5 21 rfl (by omega)).trans hp5,
      fun k => (hcauses (6 + k.val) (22 + k.val) (by omega) (by omega)).trans (hp6 k), hhigh,
      (henabled 0 (by omega)).trans he0, fun b => (henabled (1 + b.val) (by omega)).trans (he1 b),
      (henabled 4 (by omega)).trans he4, (henabled 5 (by omega)).trans he5,
      fun k => (henabled (6 + k.val) (by omega)).trans (he6 k), hgap, hhanded, hhandedUnused,
      hc0, hc1, hc2, hc3, hc4, hc5, hc6, hc8, hc11, hc16, hc24, ?_⟩
    · cases s.trip.permit <;> rfl
    · cases s.trip.last with
      | none => rfl
      | some l =>
        rw [lastTripWord_some]
        dsimp only
        cases l.source <;> rfl

end Sys2Proof.Machine
end

section
/-! The words of READ_CHANNEL, READ_MARKS and READ_RATE (R101, R106, R110, R135). -/

namespace Sys2Proof.Machine

/-! ### READ_CHANNEL -/

/-- Word 0 of READ_CHANNEL. -/
theorem channelWord_fields (code : BitVec 4) (pending resync gate stall : Bool) (errors : Byte) (cycle : BitVec 16) :
    let w := place 0 code ||| placeFlag 4 pending ||| placeFlag 5 resync ||| placeFlag 6 gate ||| placeFlag 7 stall
      ||| place 8 errors ||| place 16 cycle
    w.extractLsb' 0 4 = code ∧ w.getLsbD 4 = pending ∧ w.getLsbD 5 = resync ∧ w.getLsbD 6 = gate ∧ w.getLsbD 7 = stall
      ∧ w.extractLsb' 8 8 = errors ∧ w.extractLsb' 16 16 = cycle := by
  refine ⟨?_, ?_, ?_, ?_, ?_, ?_, ?_⟩
  all_goals simp (disch := omega) [BitVec.extractLsb'_or, -BitVec.getLsbD_eq_getElem]

/-- A progress in the 32-bit range is the signed value of its word. -/
theorem progressWord_toInt {p : Int} (h : inRange p = true) : (progressWord p).toInt = p := by
  obtain ⟨hlow, hhigh⟩ := (inRange_iff p).mp h
  rw [progressWord, if_pos h]
  exact BitVec.toInt_ofInt_eq_self (by decide) hlow hhigh

/-- Word 3 of READ_CHANNEL: the armed marks and the stall time in units of 10 ms. -/
theorem stallWord_fields (armed : BitVec 8) {units : Nat} (h : units < 256) :
    let w := place 0 armed ||| placeNat 16 units
    w.extractLsb' 0 8 = armed ∧ w.extractLsb' 8 8 = 0#8 ∧ w.extractLsb' 24 8 = 0#8
      ∧ w.extractLsb' 16 8 = BitVec.ofNat 8 units := by
  rw [placeNat_eq_place (w := 8) 16 h]
  refine ⟨?_, ?_, ?_, ?_⟩
  all_goals simp (disch := omega) [BitVec.extractLsb'_or]

/-- Units rounded up hold the number, and less than one unit more. -/
theorem ceilDiv_bounds (n : Nat) {d : Nat} (hd : 0 < d) : n ≤ ceilDiv n d * d ∧ ceilDiv n d * d < n + d := by
  have hdiv := Nat.div_add_mod (n + (d - 1)) d
  have hmod := Nat.mod_lt (n + (d - 1)) hd
  rw [Nat.mul_comm] at hdiv
  unfold ceilDiv
  omega

theorem ceilDiv_le {n d b : Nat} (hd : 0 < d) (h : n ≤ b * d) : ceilDiv n d ≤ b := by
  have hbounds := (ceilDiv_bounds n hd).2
  exact Nat.lt_succ_iff.mp (Nat.lt_of_mul_lt_mul_right (a := d) (by rw [Nat.succ_mul]; omega))

/-! ### READ_MARKS -/

/-- The header of READ_MARKS. -/
theorem marksHeader_fields {length first found : Nat} (armed : Byte) (hlength : length < 16) (hfirst : first < 8)
    (hfound : found < 4) :
    let w := placeNat 0 length ||| placeNat 4 first ||| placeNat 8 found ||| place 16 armed
    (w.extractLsb' 0 4).toNat = length ∧ (w.extractLsb' 4 3).toNat = first ∧ w.getLsbD 7 = false
      ∧ (w.extractLsb' 8 2).toNat = found ∧ w.extractLsb' 10 6 = 0#6 ∧ w.extractLsb' 16 8 = armed ∧ w.extractLsb' 24 8 = 0#8 := by
  rw [placeNat_eq_place (w := 4) 0 hlength, placeNat_eq_place (w := 3) 4 hfirst, placeNat_eq_place (w := 2) 8 hfound]
  refine ⟨?_, ?_, ?_, ?_, ?_, ?_, ?_⟩
  all_goals simp (disch := omega) [BitVec.extractLsb'_or, hlength, hfirst, hfound, -BitVec.getLsbD_eq_getElem]

/-- Word 1 of a mark record. -/
theorem markWord_fields (line : BitVec 4) (action : BitVec 3) (notify capture falling : Bool) (width : BitVec 16) :
    let w := place 0 line ||| place 4 action ||| placeFlag 7 notify ||| placeFlag 8 capture ||| placeFlag 9 falling ||| place 16 width
    w.extractLsb' 0 4 = line ∧ w.extractLsb' 4 3 = action ∧ w.getLsbD 7 = notify ∧ w.getLsbD 8 = capture ∧ w.getLsbD 9 = falling
      ∧ w.extractLsb' 10 6 = 0#6 ∧ w.extractLsb' 16 16 = width := by
  refine ⟨?_, ?_, ?_, ?_, ?_, ?_, ?_⟩
  all_goals simp (disch := omega) [BitVec.extractLsb'_or, -BitVec.getLsbD_eq_getElem]

/-! ### READ_RATE -/

/-- Word 0 of READ_RATE. -/
theorem rateWord_fields {samples : Nat} (hsamples : samples < 8) (length : BitVec 2) (running held : Bool) (count : BitVec 16) :
    let w := placeNat 0 samples ||| place 4 length ||| placeFlag 6 running ||| placeFlag 7 held ||| place 16 count
    (w.extractLsb' 0 3).toNat = samples ∧ w.getLsbD 3 = false ∧ w.extractLsb' 4 2 = length ∧ w.getLsbD 6 = running
      ∧ w.getLsbD 7 = held ∧ w.extractLsb' 8 8 = 0#8 ∧ w.extractLsb' 16 16 = count := by
  rw [placeNat_eq_place (w := 3) 0 hsamples]
  refine ⟨?_, ?_, ?_, ?_, ?_, ?_, ?_⟩
  all_goals simp (disch := omega) [BitVec.extractLsb'_or, hsamples, -BitVec.getLsbD_eq_getElem]

/-- The last word of READ_RATE: the ordinal of the last window, and the time that remains in ms. -/
theorem windowWord_fields (ordinal : BitVec 16) {units : Nat} (h : units < 1024) :
    let w := place 0 ordinal ||| placeNat 16 units
    w.extractLsb' 0 16 = ordinal ∧ (w.extractLsb' 16 10).toNat = units ∧ w.extractLsb' 26 6 = 0#6 := by
  rw [placeNat_eq_place (w := 10) 16 h]
  refine ⟨?_, ?_, ?_⟩
  all_goals simp (disch := omega) [BitVec.extractLsb'_or, h]

/-- Settles O21: each word is a word of fields, and reads each of them back. -/
theorem channelWordsReportTheChannel : Obligations.ChannelWordsReportTheChannel := by
  refine ⟨fun s k hstall => ?_, fun c m => ?_, fun m => ?_, fun s k hring hwindow => ?_⟩
  · have hunits : ceilDiv ((s.chan k).stallLeft.getD 0) tenMilliseconds ≤ 255 := ceilDiv_le (by decide) hstall
    obtain ⟨hcode, hpending, hresync, hgate, htimer, herrors, hcycle⟩ := channelWord_fields (s.chan k).state.code
      (s.chan k).commitPending (s.chan k).resyncPending (s.chan k).gateOpen ((s.chan k).stallLeft.isSome && !s.frozen k)
      (s.chan k).phaseErrors (s.chan k).cycleIndex
    obtain ⟨harmed, hunused, hhigh, htime⟩ := stallWord_fields (s.chan k).arming.bits (Nat.lt_succ_of_le hunits)
    refine ⟨_, _, _, _, rfl, hcode, hpending, hresync, hgate, htimer, herrors, hcycle, rfl, progressWord_toInt, harmed, hunused,
      hhigh, fun hnone => ?_, fun x hx => ?_⟩
    · rw [htime, hnone]; rfl
    · rw [hx, Option.getD_some] at hunits htime
      rw [hx, Option.getD_some, htime, BitVec.toNat_ofNat, Nat.mod_eq_of_lt (by omega)]
      exact ceilDiv_bounds x (by decide)
  · intro active marks first found hmarks
    have hset : (c.selectedSet m).marks = marks := apply_ite ChannelConfig.marks _ _ _
    have harmed : (if active then place 16 c.arming.bits else 0#32) = place 16 (if active then c.arming.bits else 0#8) := by
      cases active <;> rfl
    have hbody : c.readMarksBody m = (placeNat 0 marks.length ||| placeNat 4 first ||| placeNat 8 found.length
        ||| place 16 (if active then c.arming.bits else 0#8)) :: (found.map Mark.words).flatten := by
      rw [← harmed, ← List.flatMap_def, Channel.readMarksBody, hset]
      rfl
    exact ⟨_, hbody, marksHeader_fields _ (by omega) (BitVec.isLt _) (Nat.lt_succ_of_le (List.length_take_le 3 _))⟩
  · obtain ⟨hline, haction, hnotify, hcapture, hfalling, hunused, hwidth⟩ := markWord_fields (markLineCode m.line) m.action.code
      m.notify m.capture (m.crossing == .falling) m.width
    refine ⟨_, rfl, hline.trans ?_, haction.trans ?_, hnotify, hcapture, hfalling, hunused, hwidth⟩
    · cases m.line <;> rfl
    · cases m.action <;> rfl
  · intro c code
    have hunits : c.windowRemaining ≤ 1000 := by
      unfold Channel.windowRemaining
      split
      · next x hx => exact ceilDiv_le (by decide) (hwindow x hx)
      · decide
    obtain ⟨hsamples, hunused, hlength, hrunning, hheld, hzero, hcount⟩ := rateWord_fields (show (s.chan k).ring.length < 8 by omega)
      c.windowLength.code (c.windowLeft.isSome && !s.frozen k) (c.windowLeft.isSome && s.frozen k) c.windowCount
    have hordinal : (if c.windowCount = 0#16 then 0#32 else place 0 c.lastWindowOrdinal)
        = place 0 (if c.windowCount = 0#16 then 0#16 else c.lastWindowOrdinal) := by
      split <;> rfl
    obtain ⟨hlast, hleft, hhigh⟩ := windowWord_fields (if c.windowCount = 0#16 then 0#16 else c.lastWindowOrdinal)
      (show c.windowRemaining < 1024 by omega)
    rw [← hordinal] at hlast hleft hhigh
    exact ⟨_, _, rfl, hsamples, hunused, hlength.trans rfl, hrunning, hheld, hzero, hcount, hlast, hleft, hhigh⟩

end Sys2Proof.Machine
end

section
/-! Mark records and the trip configuration, read back from their words (R106, R108, R172). -/

namespace Sys2Proof.Machine

/-! ### The codes of a mark record (R108) -/

theorem decodeMarkLine_eq_some_iff {code : BitVec 4} {line : Option (Fin 12)} :
    decodeMarkLine code = some line ↔ code = markLineCode line := by revert code line; decide

theorem decodeAction_eq_some_iff {code : BitVec 3} {action : MarkAction} :
    decodeAction code = some action ↔ code = action.code := by cases action <;> revert code <;> decide

/-- The code of a line is 0..11 or 15, and 15 stands for no line. -/
theorem markLineCode_range (line : Option (Fin 12)) :
    ¬(12 ≤ (markLineCode line).toNat ∧ (markLineCode line).toNat ≤ 14) ∧ ((markLineCode line).toNat = 15 ↔ line = none) := by
  revert line; decide

/-- The code of an action is 0..4, and 0 stands for no action. -/
theorem MarkAction.code_range (a : MarkAction) : a.code.toNat < 5 ∧ (a.code.toNat = 0 ↔ a = .nothing) := by
  cases a <;> decide

theorem crossing_of_flag (x : Crossing) : (if (x == .falling) = true then Crossing.falling else .rising) = x := by
  cases x <;> rfl

/-! ### The words of a mark record -/

/-- Two words decode to a record when each field holds the record's, the unused bits are 0, and line and action agree. -/
theorem decodeMark_eq_some_iff {w0 w1 : Word} {r : Mark} : decodeMark w0 w1 = some r ↔
    field w1 0 4 = markLineCode r.line ∧ field w1 4 3 = r.action.code ∧ field w1 10 6 = 0#6
      ∧ (r.action = .nothing ↔ r.line = none)
      ∧ r = ⟨w0, r.line, r.action, field w1 16 16, bit w1 7, bit w1 8, if bit w1 9 then .falling else .rising⟩ := by
  have agree : ∀ (action : MarkAction) (line : Option (Fin 12)),
      (action == .nothing) = line.isNone ↔ (action = .nothing ↔ line = none) := fun action line => by
    rw [Bool.eq_iff_iff, beq_iff_eq, Option.isNone_iff_eq_none]
  rw [← decodeMarkLine_eq_some_iff, ← decodeAction_eq_some_iff]
  constructor
  · intro h
    unfold decodeMark at h
    split at h
    next line action hline haction =>
      split at h
      next hvalid =>
        obtain ⟨hunused, hagree⟩ := hvalid
        cases h
        exact ⟨hline, haction, hunused, (agree action line).mp hagree, rfl⟩
      next => cases h
    next => cases h
  · rintro ⟨hline, haction, hunused, hagree, hr⟩
    rw [decodeMark, hline, haction]
    exact (if_pos ⟨hunused, (agree _ _).mpr hagree⟩).trans (congrArg some hr.symm)

/-- A record whose line and action agree reads back from its two words. -/
theorem Mark.decode_words {r : Mark} (h : r.action = .nothing ↔ r.line = none) :
    ∃ w0 w1, r.words = [w0, w1] ∧ decodeMark w0 w1 = some r := by
  obtain ⟨hline, haction, hnotify, hcapture, hfalling, hunused, hwidth⟩ := markWord_fields (markLineCode r.line) r.action.code
    r.notify r.capture (r.crossing == .falling) r.width
  refine ⟨_, _, rfl, decodeMark_eq_some_iff.mpr ⟨hline, haction, hunused, h, ?_⟩⟩
  unfold field bit
  rw [hnotify, hcapture, hfalling, hwidth, crossing_of_flag]

/-- The words of STAGE_MARK that R108 refuses are those of no record. -/
theorem decodeMark_of_invalid (w0 : Word) {w1 : Word}
    (h : (12 ≤ (field w1 0 4).toNat ∧ (field w1 0 4).toNat ≤ 14) ∨ 5 ≤ (field w1 4 3).toNat ∨ field w1 10 6 ≠ 0#6
      ∨ ((field w1 4 3).toNat = 0 ∧ (field w1 0 4).toNat ≠ 15) ∨ ((field w1 4 3).toNat ≠ 0 ∧ (field w1 0 4).toNat = 15)) :
    decodeMark w0 w1 = none := by
  refine Option.eq_none_iff_forall_ne_some.mpr fun r hr => ?_
  obtain ⟨hlineCode, hactionCode, hunused, hagree, -⟩ := decodeMark_eq_some_iff.mp hr
  obtain ⟨hgap, hnoLine⟩ := markLineCode_range r.line
  obtain ⟨hfew, hnoAction⟩ := r.action.code_range
  rw [← hlineCode] at hgap hnoLine
  rw [← hactionCode] at hfew hnoAction
  have hboth : (field w1 4 3).toNat = 0 ↔ (field w1 0 4).toNat = 15 := hnoAction.trans (hagree.trans hnoLine.symm)
  obtain hbad | hbad | hbad | ⟨hzero, hbad⟩ | ⟨hbad, hnone⟩ := h
  · exact hgap hbad
  · exact absurd hfew (Nat.not_lt.mpr hbad)
  · exact hbad hunused
  · exact hbad (hboth.mp hzero)
  · exact hbad (hboth.mpr hnone)

/-! ### The trip configuration (R172) -/

theorem decodeAuto_code (k : Option (Fin 6)) : decodeAuto (autoCode k) = some k := by revert k; decide

theorem policy_of_flag (p : ChannelPolicy) : (if p = .coast then ChannelPolicy.coast else .freeze) = p := by cases p <;> rfl

theorem hostLoss_of_flag (p : HostLossPolicy) : (if p = .trip then HostLossPolicy.trip else .hold) = p := by cases p <;> rfl

theorem decodeTrip_tripWord (c : TripConfig) : decodeTrip (tripWord c) (~~~tripWord c) = some c := by
  obtain ⟨htripIn, hactiveHigh, hoverload, hsupply, hpolicy, hhostLoss, hlow, hauto, hmiddle, hwatch, hhigh⟩ := tripWord_fields c
  have hchannel : decodeAuto (field (tripWord c) 8 3) = some c.autoChannel := by
    rw [show field (tripWord c) 8 3 = autoCode c.autoChannel from hauto.trans (by cases c.autoChannel <;> rfl), decodeAuto_code]
  rw [decodeTrip, hchannel]
  refine (if_pos ⟨hlow, hmiddle, hhigh, rfl⟩).trans ?_
  simp only [field, bit, htripIn, hactiveHigh, hoverload, hsupply, hpolicy, hhostLoss, hwatch, decide_eq_true_eq, policy_of_flag,
    hostLoss_of_flag]

/-- Settles O23: each word reads back field by field. -/
theorem markAndTripWordsReadBack : Obligations.MarkAndTripWordsReadBack :=
  ⟨fun _ hagree => Mark.decode_words hagree, decodeTrip_tripWord⟩

end Sys2Proof.Machine
end

section
/-! The staging commands on a channel that is not commit-pending, and STAGE_MARK and CLEAR_MARKS (R61, R108, R109). -/

namespace Sys2Proof.Machine

variable {s : State} {m : Message} {rest : List Message} {k : Fin 6}

/-! ### A staging command (R61) -/

/-- A staging command stages the set that its fields make, or is refused with BAD_VALUE when they make none. -/
theorem exec_stages {c : Instr} {f : CommandForm} {write : Message → ChannelConfig → Option ChannelConfig} {x : BitVec 9}
    (hc : engineCommand c = some (f, fun m t => t.stage m.channelNumber (write m))) (hchannel : f.channel = .channel)
    (hseal : f.sealedFrom = none) (hx : x &&& ~~~f.modifierMask = 0#9) (hlength : f.length = some m.body.length)
    (h : s.takes m rest) (hm : m.isCommand f.kind (channelField k) x) (hpending : (s.chan k).commitPending = false) :
    exec c s = .next ((write m (s.chan k).staged).elim (s.answered m rest .badValue [])
      fun d => (s.modChan k ({ · with staged := d })).answered m rest .done []) := by
  have hfield : headChannel m.head = channelField k := hm.2.1
  rw [exec_engineCommand hc, State.command_channel h hm rfl hchannel hx (by simp [hlength]) (by simp [hseal]),
    Message.channelNumber_of_field hfield, State.stage, State.takeMessage_chan, hpending, if_neg Bool.false_ne_true]
  cases write m (s.chan k).staged <;> rfl

/-! ### The list of marks (R108) -/

section
variable {i : Nat} {r : Mark} {marks : List Mark}

theorem putMark_of_lt (h : i < marks.length) : putMark i r marks = some (marks.set i r) := if_pos h

theorem putMark_length (h : i = marks.length) : putMark i r marks = some (marks ++ [r]) := by
  rw [putMark, if_neg h.not_lt, if_pos h]

theorem putMark_beyond (h : marks.length < i) : putMark i r marks = none := by
  rw [putMark, if_neg h.not_gt, if_neg h.ne']

end

theorem withMarkWords_of_some {w0 w1 : Word} {r : Mark} (h : decodeMark w0 w1 = some r) (i : Nat) (c : ChannelConfig) :
    withMarkWords i w0 w1 c = (putMark i r c.marks).map fun marks => { c with marks := marks } := by
  rw [withMarkWords, h]

theorem withMarkWords_of_none {w0 w1 : Word} (h : decodeMark w0 w1 = none) (i : Nat) (c : ChannelConfig) :
    withMarkWords i w0 w1 c = none := by
  rw [withMarkWords, h]

/-! ### STAGE_MARK -/

/-- An index 0..7 uses the bits of the modifier that STAGE_MARK defines. -/
theorem markIndex_defined {i : BitVec 9} (h : i.toNat < 8) : i &&& ~~~stageMarkForm.modifierMask = 0#9 := by
  obtain ⟨n, hn, rfl⟩ : ∃ n < 8, i = BitVec.ofNat 9 n := ⟨i.toNat, h, by simp⟩
  interval_cases n <;> rfl

theorem exec_stageMark {i : BitVec 9} {w0 w1 : Word} (h : s.takes m rest) (hpending : (s.chan k).commitPending = false)
    (hi : i.toNat < 8) (hm : m.isCommand 0x28#8 (channelField k) i) (hbody : m.body = [w0, w1]) :
    exec .stageMark s = .next ((withMarkWords i.toNat w0 w1 (s.chan k).staged).elim (s.answered m rest .badValue [])
      fun d => (s.modChan k ({ · with staged := d })).answered m rest .done []) := by
  have hlength : stageMarkForm.length = some m.body.length := by rw [hbody]; rfl
  have hindex : headModifier m.head = i := hm.2.2
  have hfirst : m.word 0 = w0 := by rw [Message.word, hbody]; rfl
  have hsecond : m.word 1 = w1 := by rw [Message.word, hbody]; rfl
  have hexec := exec_stages (c := .stageMark) rfl rfl rfl (markIndex_defined hi) hlength h hm hpending
  rwa [hindex, hfirst, hsecond] at hexec

/-- Settles O26: the record by the place of its index in the list, the invalid words by `decodeMark_of_invalid`. -/
theorem markListIsStaged : Obligations.MarkListIsStaged := by
  intro s m rest k h hpending d after
  refine ⟨fun i r hi hm hbody hagree => ?record, fun i w0 w1 hi hm hbody hbad => ?invalid, fun hm hbody => ?clear⟩
  case record =>
    obtain ⟨w0, w1, hwords, hdecode⟩ := Mark.decode_words hagree
    rw [exec_stageMark h hpending hi hm (hbody.trans hwords), withMarkWords_of_some hdecode]
    refine ⟨fun hlow => ?_, fun hend => ?_, fun hbeyond => ?_⟩
    · rw [putMark_of_lt hlow]; rfl
    · rw [putMark_length hend]; rfl
    · rw [putMark_beyond hbeyond]; rfl
  case invalid =>
    rw [exec_stageMark h hpending hi hm hbody, withMarkWords_of_none (decodeMark_of_invalid w0 hbad)]
    rfl
  case clear =>
    have hlength : clearMarksForm.length = some m.body.length := by rw [hbody]; rfl
    exact exec_stages (c := .clearMarks) (write := fun _ c => some { c with marks := [] }) rfl rfl rfl rfl hlength h hm hpending

end Sys2Proof.Machine
end

section
/-! READ_CAPTURES, and what a capture attempt does (R76, R125 to R130). -/

namespace Sys2Proof.Machine

variable {s : State} {m : Message} {rest : List Message} {k : Fin 6}

/-! ### READ_CAPTURES (R76, R129) -/

/-- READ_CAPTURES on the message it requires: refused for a LENT channel, and otherwise the channel without the records
returned. -/
theorem exec_readCaptures (h : s.takes m rest) (hbody : m.body = []) (hm : m.isCommand 0x38#8 (channelField k) 0#9) :
    exec .readCaptures s = .next (if (s.chan k).state = .lent then s.answered m rest .wrongState []
      else (s.modChan k Channel.takeCaptures).answered m rest .done (s.chan k).readCapturesBody) := by
  have hchannel : headChannel m.head = channelField k := hm.2.1
  rw [exec_reads_channel (c := .readCaptures) rfl rfl rfl rfl (by decide) h hbody hm]
  simp only [Message.channelNumber_of_field hchannel, State.takeMessage_chan]
  split <;> rfl

/-- The header of READ_CAPTURES. -/
theorem capturesHeader_fields {returned left : Nat} (overcapture : Byte) (hreturned : returned < 4) (hleft : left < 8) :
    let w := placeNat 0 returned ||| placeNat 4 left ||| place 8 overcapture
    (w.extractLsb' 0 2).toNat = returned ∧ (w.extractLsb' 4 3).toNat = left ∧ w.extractLsb' 8 8 = overcapture := by
  rw [placeNat_eq_place (w := 2) 0 hreturned, placeNat_eq_place (w := 3) 4 hleft]
  refine ⟨?_, ?_, ?_⟩
  all_goals simp (disch := omega) [BitVec.extractLsb'_or, hreturned, hleft]

/-- The body of the reply: at most three records, the oldest first, behind a header that counts them. -/
theorem Channel.readCapturesBody_eq (c : Channel) (h : c.captures.length ≤ 4) :
    ∃ w, c.readCapturesBody = w :: ((c.captures.take 3).map CaptureRecord.words).flatten
      ∧ (w.extractLsb' 0 2).toNat = min 3 c.captures.length ∧ (w.extractLsb' 4 3).toNat = c.captures.length - 3
      ∧ w.extractLsb' 8 8 = c.overcapture := by
  rw [Channel.readCapturesBody, List.flatMap_def, List.length_take, List.length_drop]
  exact ⟨_, rfl, capturesHeader_fields c.overcapture (by omega) (by omega)⟩

/-- The second word of a record, its fields side by side. -/
theorem CaptureRecord.words_eq (r : CaptureRecord) : r.words = [r.value, r.index ++ r.cause ++ r.ordinal] := by
  rw [CaptureRecord.words, append_halves, place_append, BitVec.or_assoc]

/-! ### What is claimed -/

/-- Settles O33: the reply by its header and the records behind it; the capture attempt is that of
`State.captureAttempt_eq`, whose FIFO of at most 4 records is full exactly when it holds no fewer than 4. -/
theorem readCapturesTakesOldest : Obligations.ReadCapturesTakesOldest := by
  refine ⟨fun s m rest k h hbody hm => ⟨fun hlent => ?_, fun hkept hfifo => ?_⟩, CaptureRecord.words_eq,
    fun s k cause value hfifo => ?_⟩
  · rw [exec_readCaptures h hbody hm, if_pos hlent]
  · obtain ⟨w, hwords, hfields⟩ := (s.chan k).readCapturesBody_eq hfifo
    rw [exec_readCaptures h hbody hm, if_neg hkept, hwords]
    exact ⟨w, rfl, hfields⟩
  · intro c r stored d
    have full : decide ((s.chan k).captures.length = 4) = !decide stored := by
      rw [← decide_not]
      exact decide_eq_decide.2 (show _ ↔ ¬(s.chan k).captures.length < 4 by omega)
    rw [State.captureAttempt_eq s k cause value hfifo, full]
    rfl

end Sys2Proof.Machine
end

section
/-! The commands of Chapter 8 that carry one word: their header below a seal level, their checks as one chain of conditions
on the state, and the lines, owners and safe levels read from their words (R21, R152 to R156). -/

namespace Sys2Proof.Machine

variable {s u : State} {m : Message} {rest : List Message} {w : Word}

/-! ### The header and the answer (R21 to R23) -/

/-- A device-wide command of one word that the seal freezes only from a higher level passes the checks of its header. -/
theorem exec_word_below_seal {c : Instr} {f : CommandForm} {body : Message → State → State × Reply} {level : Nat}
    (hc : engineCommand c = some (f, body)) (hf : f = (CommandForm.device f.kind 1).frozenFrom level) (h : s.takes m rest)
    (hm : m.isCommand f.kind 15#4 0#9) (hseal : s.sealLevel.toNat < level) (hbody : m.body = [w]) :
    exec c s = .next ((body m (s.takeMessage rest)).1.admitReply m (body m (s.takeMessage rest)).2) := by
  rw [exec_engineCommand hc, State.command_device h hm rfl (by rw [hf]; rfl)]
  · rw [hf]; simp [CommandForm.frozenFrom, CommandForm.device, hbody]
  · rw [hf]; simpa [CommandForm.frozenFrom] using hseal

/-- What a command answers after a check is what it answers on each side of the check. -/
theorem State.admitReply_ite {p : Prop} [Decidable p] (x y : State × Reply) :
    (if p then x else y).1.admitReply m (if p then x else y).2 =
      if p then x.1.admitReply m x.2 else y.1.admitReply m y.2 := by split <;> rfl

/-- A command that changes the line table alone leaves the answered state but for the line table. -/
theorem State.admitReply_of_matrix (h : u = { s.takeMessage rest with matrix := u.matrix }) (code : ResultCode)
    (body : List Word) : u.admitReply m ⟨code, body⟩ = { s.answered m rest code body with matrix := u.matrix } :=
  congrArg (·.admitReply m ⟨code, body⟩) h

/-! ### Owners that are at work (R152, R153, R155) -/

theorem State.ownerLive_iff {o : Owner} :
    s.ownerLive o = true ↔ ∃ k : Fin 6, o = .channel k ∧ (s.chan k).state.live = true := by
  cases o <;> simp [State.ownerLive]

theorem State.ownerMarks_iff {o : Owner} {n : Fin 12} :
    s.ownerMarks o n = true ↔ ∃ k : Fin 6, o = .channel k ∧ ∃ x ∈ (s.chan k).active.marks, x.line = some n := by
  cases o <;> simp [State.ownerMarks]

theorem State.ownerLent_iff {o : Owner} : s.ownerLent o = true ↔ ∃ k : Fin 6, o = .channel k ∧ (s.chan k).state = .lent := by
  cases o <;> simp [State.ownerLent]

/-! ### Lines, owners and safe levels of a word -/

theorem lineNumber_eq_none {n : Nat} (h : 12 ≤ n) : lineNumber n = none := dif_neg (Nat.not_lt.mpr h)

theorem lineNumber_code (n : Fin 12) : lineNumber (BitVec.ofNat 4 n.val).toNat = some n := by revert n; decide

/-- The number of a line takes four bits of a word. -/
theorem lineWord_eq (n : Fin 12) : BitVec.ofNat 32 n.val = place 0 (BitVec.ofNat 4 n.val) := by revert n; decide

/-- The line field of a word, when no other operand reaches into it. -/
theorem lineNumber_field {n : Fin 12} {x : Word} (hx : field x 0 4 = 0#4) :
    lineNumber (field (BitVec.ofNat 32 n.val ||| x) 0 4).toNat = some n := by
  unfold field at hx
  rw [lineWord_eq, field, BitVec.extractLsb'_or, extract_place_self _ (by decide), hx, BitVec.or_zero, lineNumber_code]

theorem decodeOwner_code {o : Owner} (h : o ≠ .nobody) : decodeOwner o.code = some o := by
  cases o with
  | nobody => exact absurd rfl h
  | host => rfl
  | channel k => revert k; decide

theorem decodeOwner_eq_none {code : BitVec 4} (h : 6 ≤ code.toNat ∧ code.toNat ≠ 8) : decodeOwner code = none := by
  revert code; decide

theorem decodeSafe_code (safe : PinLevel) : decodeSafe (safeCode safe) = some safe := by cases safe <;> rfl

/-! ### Bits outside a mask -/

theorem onlyBits_iff {mask : Word} : onlyBits w mask = true ↔ w &&& ~~~mask = 0#32 := beq_iff_eq

theorem onlyBits_eq_false {mask : Word} : onlyBits w mask = false ↔ w &&& ~~~mask ≠ 0#32 := beq_eq_false_iff_ne

theorem onlyBits_or {x y mask : Word} (hx : onlyBits x mask = true) (hy : onlyBits y mask = true) :
    onlyBits (x ||| y) mask = true := by
  rw [onlyBits_iff] at *
  rw [BitVec.and_comm, BitVec.and_or_distrib_left, BitVec.and_comm _ x, BitVec.and_comm _ y, hx, hy, BitVec.or_zero]

/-- An operand lies within a mask when the mask holds every bit of its place. -/
theorem onlyBits_place {n lo : Nat} {mask : Word} (x : BitVec n) (h : onlyBits (place lo (BitVec.allOnes n)) mask = true) :
    onlyBits (place lo x) mask = true := by
  rw [onlyBits_iff] at *
  apply BitVec.eq_of_getLsbD_eq
  intro i hi
  have hone := congrArg (BitVec.getLsbD · i) h
  simp only [BitVec.getLsbD_and, getLsbD_place, BitVec.getLsbD_zero, BitVec.getLsbD_allOnes] at hone ⊢
  by_cases hx : x.getLsbD (i - lo) = true
  · rwa [hx, ← decide_eq_true (BitVec.lt_of_getLsbD hx)]
  · rw [Bool.eq_false_iff.mpr hx, Bool.and_false, Bool.false_and]

theorem onlyBits_line (n : Fin 12) {mask : Word} (h : onlyBits 15#32 mask = true) :
    onlyBits (BitVec.ofNat 32 n.val) mask = true :=
  lineWord_eq n ▸ onlyBits_place _ h

end Sys2Proof.Machine
end

section
/-! BIND_LINE and UNBIND_LINE (R152, R153). -/

namespace Sys2Proof.Machine

variable {s : State} {m : Message} {rest : List Message} {w : Word} {n : Fin 12}

/-! ### The words that are refused -/

theorem State.bindLine_badValue (hbody : m.body = [w]) (h : 12 ≤ (w.extractLsb' 0 4).toNat
    ∨ (6 ≤ (w.extractLsb' 8 4).toNat ∧ (w.extractLsb' 8 4).toNat ≠ 8) ∨ w &&& 0xFFFFF0F0#32 ≠ 0#32) :
    s.bindLine m = refuse .badValue s := by
  rw [State.bindLine, Message.word_zero hbody]
  obtain hline | howner | hbits := h
  · rw [lineNumber_eq_none (n := (field w 0 4).toNat) hline]
  · rw [decodeOwner_eq_none (code := field w 8 4) howner]
    cases lineNumber (field w 0 4).toNat <;> rfl
  · rw [onlyBits_eq_false (mask := 0xF0F#32).mpr hbits]
    split <;> rfl

theorem State.unbindLine_badValue (hbody : m.body = [w]) (h : 12 ≤ (w.extractLsb' 0 4).toNat ∨ w &&& 0xFFFFFFF0#32 ≠ 0#32) :
    s.unbindLine m = refuse .badValue s := by
  rw [State.unbindLine, Message.word_zero hbody]
  obtain hline | hbits := h
  · rw [lineNumber_eq_none (n := (field w 0 4).toNat) hline]
  · rw [onlyBits_eq_false (mask := 0xF#32).mpr hbits]
    split <;> rfl

/-! ### The words that name a line -/

theorem State.bindLine_eq {o : Owner} (ho : o ≠ .nobody) (hbody : m.body = [BitVec.ofNat 32 n.val ||| o.code.setWidth 32 <<< 8]) :
    s.bindLine m = s.bindTo n o := by
  have howner : field (BitVec.ofNat 32 n.val ||| place 8 o.code) 8 4 = o.code := by
    rw [lineWord_eq, field, BitVec.extractLsb'_or, extract_place_outside _ (by decide), extract_place_self _ (by decide),
      BitVec.zero_or]
  have hbits : onlyBits (BitVec.ofNat 32 n.val ||| place 8 o.code) 0xF0F#32 = true :=
    onlyBits_or (onlyBits_line n rfl) (onlyBits_place _ rfl)
  rw [State.bindLine, Message.word_zero (w := BitVec.ofNat 32 n.val ||| place 8 o.code) hbody,
    lineNumber_field (extract_place_outside _ (by decide)), howner, decodeOwner_code ho]
  exact if_pos hbits

theorem State.unbindLine_eq (hbody : m.body = [BitVec.ofNat 32 n.val]) : s.unbindLine m = s.unbindFrom n := by
  have hline : field (BitVec.ofNat 32 n.val) 0 4 = BitVec.ofNat 4 n.val :=
    lineWord_eq n ▸ extract_place_self _ (by decide)
  rw [State.unbindLine, Message.word_zero hbody, hline, lineNumber_code]
  exact if_pos (onlyBits_line n rfl)

/-! ### What an owner given or taken does -/

/-- The owner of a line is that of its odd line too when it is the even line of a pair; nothing else changes. -/
theorem State.setOwner_cases (s : State) (n : Fin 12) (o : Owner) :
    s.setOwner n o = { s with matrix := (s.setOwner n o).matrix } ∧ (s.setOwner n o).matrix.pairs = s.matrix.pairs
      ∧ (s.setOwner n o).matrix.shut = s.matrix.shut
      ∧ ∀ l : Fin 12, (s.setOwner n o).line l =
          if l = n ∨ (s.pairing n = .pairEven ∧ l = oddLine (pairOfLine n)) then { s.line l with owner := o } else s.line l := by
  unfold State.setOwner
  split
  next heven =>
    have hodd : oddLine (pairOfLine n) ≠ n := by
      obtain ⟨hn, -⟩ := (s.pairEven_iff n (pairOfLine n)).mp ⟨rfl, heven⟩
      rw [Fin.ext_iff] at hn
      simp only [evenLine, oddLine, ne_eq, Fin.ext_iff] at hn ⊢
      omega
    refine ⟨rfl, rfl, rfl, fun l => ?_⟩
    by_cases hl : l = oddLine (pairOfLine n)
    · subst hl; simp [heven, State.line_setLine, hodd]
    · by_cases hn : l = n
      · subst hn; simp [State.line_setLine, hl]
      · simp [State.line_setLine, hl, hn]
  next hother =>
    refine ⟨rfl, rfl, rfl, fun l => ?_⟩
    by_cases hn : l = n
    · subst hn; simp
    · simp [State.line_setLine, hn, hother]

/-- A line that loses its owner is INACTIVE, its odd line is nobody's, and its pair is SETTLED; nothing else changes. -/
theorem State.unbind_cases (s : State) (n : Fin 12) :
    s.unbind n = { s with matrix := (s.unbind n).matrix } ∧ (s.unbind n).matrix.shut = s.matrix.shut
      ∧ (∀ l : Fin 12, (s.unbind n).line l =
          if l = n then { s.line n with owner := .nobody, active := false, pulseLeft := none }
          else (s.setOwner n .nobody).line l)
      ∧ ∀ j : Fin 6, (s.unbind n).pair j =
          if s.pairing n = .pairEven ∧ j = pairOfLine n then { s.pair j with gapLeft := none } else s.pair j := by
  obtain ⟨hfields, hpairs, hshut, hlines⟩ := s.setOwner_cases n .nobody
  have hpair : ∀ j, (s.setOwner n .nobody).pair j = s.pair j := fun j => by rw [State.pair, hpairs]; rfl
  have hline : (s.setOwner n .nobody).line n = { s.line n with owner := .nobody } := (hlines n).trans (if_pos (.inl rfl))
  have hcleared : (s.setOwner n .nobody).clearLine n
      = { s with matrix := ((s.setOwner n .nobody).clearLine n).matrix } := by
    conv_lhs => rw [State.clearLine, hfields]
    rfl
  unfold State.unbind
  generalize s.setOwner n .nobody = v at *
  split
  next heven =>
    refine ⟨?_, hshut, fun l => ?_, fun j => ?_⟩
    · exact congrArg (fun t : State => t.cancelGap (pairOfLine n)) hcleared
    · simp [State.cancelGap, State.clearLine, State.line_setLine, hline]
    · by_cases hj : j = pairOfLine n
      · subst hj; simp [State.cancelGap, State.clearLine, heven, hpair]
      · simp [State.cancelGap, State.clearLine, State.pair_setPair, hj, hpair]
  next hother =>
    refine ⟨hcleared, hshut, fun l => ?_, fun j => ?_⟩
    · simp [State.clearLine, State.line_setLine, hline]
    · simp [State.clearLine, hother, hpair]

/-! ### The rows -/

/-- BIND_LINE on a line and an owner: the checks of R152 in order, and the binding. -/
theorem exec_bindLine {o : Owner} (h : s.takes m rest) (hm : m.isCommand 0x40#8 15#4 0#9) (hseal : s.sealLevel.toNat < 3)
    (ho : o ≠ .nobody) (hbody : m.body = [BitVec.ofNat 32 n.val ||| o.code.setWidth 32 <<< 8]) :
    exec .bindLine s = .next (if s.pairing n = .pairOdd then s.answered m rest .wrongState []
      else if (s.line n).owner ≠ .nobody ∧ (s.line n).owner ≠ o then s.answered m rest .lineTaken []
      else if s.ownerLent o = true then s.answered m rest .wrongState []
      else if (s.line n).owner = o then s.answered m rest .done []
      else ((s.takeMessage rest).setOwner n o).admitReply m (.done [])) := by
  rw [exec_word_below_seal (c := .bindLine) rfl rfl h hm hseal hbody, State.bindLine_eq ho hbody, State.bindTo]
  simp only [State.admitReply_ite]
  rfl

/-- UNBIND_LINE on a line: the checks of R153 in order, and the unbinding. -/
theorem exec_unbindLine (h : s.takes m rest) (hm : m.isCommand 0x41#8 15#4 0#9) (hseal : s.sealLevel.toNat < 3)
    (hbody : m.body = [BitVec.ofNat 32 n.val]) :
    exec .unbindLine s = .next (if s.pairing n = .pairOdd then s.answered m rest .wrongState []
      else if s.ownerLive (s.line n).owner = true then s.answered m rest .wrongState []
      else if s.ownerMarks (s.line n).owner n = true then s.answered m rest .wrongState []
      else if (s.line n).owner = .nobody then s.answered m rest .done []
      else ((s.takeMessage rest).unbind n).admitReply m (.done [])) := by
  rw [exec_word_below_seal (c := .unbindLine) rfl rfl h hm hseal hbody, State.unbindLine_eq hbody, State.unbindFrom]
  simp only [State.admitReply_ite]
  rfl

/-- Settles O34: the checks are those of the two rows, and the lines and pairs those of an owner given or taken. -/
theorem bindingGivesAndTakesOwner : Obligations.BindingGivesAndTakesOwner := by
  intro s m rest n h hseal odd
  refine ⟨fun w hbody => ⟨fun hm hbad => ?badBind, fun hm hbad => ?badUnbind⟩, fun o ho hm hbody => ?bind,
    fun hm hbody => ?unbind⟩
  case badBind =>
    rw [exec_word_below_seal (c := .bindLine) rfl rfl h hm hseal hbody, State.bindLine_badValue hbody hbad]
    rfl
  case badUnbind =>
    rw [exec_word_below_seal (c := .unbindLine) rfl rfl h hm hseal hbody, State.unbindLine_badValue hbody hbad]
    rfl
  case bind =>
    intro lent
    have hlends : s.ownerLent o = true ↔ lent := State.ownerLent_iff
    rw [exec_bindLine h hm hseal ho hbody]
    refine ⟨fun hodd => ?_, fun hodd hsome hother => ?_, fun hodd hfree hlent => ?_, fun hodd hsame hlent => ?_,
      fun hodd hnobody hlent => ?_⟩
    · rw [if_pos hodd]
    · rw [if_neg hodd, if_pos ⟨hsome, hother⟩]
    · rw [if_neg hodd, if_neg fun htaken => hfree.elim htaken.1 htaken.2, if_pos (hlends.mpr hlent)]
    · rw [if_neg hodd, if_neg fun htaken => htaken.2 hsame, if_neg (hlends.not.mpr hlent), if_pos hsame]
    · rw [if_neg hodd, if_neg fun htaken => htaken.1 hnobody, if_neg (hlends.not.mpr hlent), if_neg fun hsame => ho (hsame.symm.trans hnobody)]
      obtain ⟨hfields, hpairs, hshut, hlines⟩ := (s.takeMessage rest).setOwner_cases n o
      exact ⟨_, rfl, State.admitReply_of_matrix hfields _ _, hpairs, hshut, fun l hl => (hlines l).trans (if_pos hl),
        fun l hl => (hlines l).trans (if_neg hl)⟩
  case unbind =>
    intro held
    have hheld : held ↔ s.ownerLive (s.line n).owner = true ∨ s.ownerMarks (s.line n).owner n = true := by
      rw [State.ownerLive_iff, State.ownerMarks_iff, ← exists_or]
      exact exists_congr fun k => and_or_left
    rw [exec_unbindLine h hm hseal hbody]
    refine ⟨fun hrefused => ?_, fun hodd hnobody => ?_, fun hodd hfree hsome => ?_⟩
    · obtain hodd | hlive | hmarks := hrefused.imp_right hheld.mp
      · rw [if_pos hodd]
      · rw [if_pos hlive, ite_self]
      · rw [if_pos hmarks, ite_self, ite_self]
    · rw [if_neg hodd, hnobody]; rfl
    · obtain ⟨hlive, hmarks⟩ := not_or.mp (hheld.not.mp hfree)
      rw [if_neg hodd, if_neg hlive, if_neg hmarks, if_neg hsome]
      obtain ⟨hfields, hshut, hlines, hpairs⟩ := (s.takeMessage rest).unbind_cases n
      obtain ⟨-, -, -, howners⟩ := (s.takeMessage rest).setOwner_cases n .nobody
      refine ⟨_, rfl, State.admitReply_of_matrix hfields _ _, hshut, (hlines n).trans (if_pos rfl), fun l hl => ?_,
        fun l hl => ?_, hpairs⟩
      · have hne : l ≠ n := by
          rintro rfl
          exact hodd ((s.pairOdd_iff l).mpr ⟨((s.pairEven_iff l _).mp ⟨rfl, hl.1⟩).2, hl.2⟩)
        exact (hlines l).trans ((if_neg hne).trans ((howners l).trans (if_pos (.inr hl))))
      · exact (hlines l).trans ((if_neg fun hn => hl (.inl hn)).trans ((howners l).trans (if_neg hl)))

end Sys2Proof.Machine
end

section
/-! SHAPE_LINE (R145, R154), and the form that its word shares with the word of SHAPE_PAIR. -/

namespace Sys2Proof.Machine

variable {s : State} {m : Message} {rest : List Message} {w : Word} {n p : Fin 12} {inverted : Bool} {safe : PinLevel}

/-! ### A line, a flag and a field of a word (R154, R155) -/

theorem shapeWord_fields (n : Fin 12) (b : Bool) {k : Nat} (x : BitVec k) (hk : k ≤ 24) :
    let w : Word := BitVec.ofNat 32 n.val ||| (BitVec.ofBool b).setWidth 32 <<< 4 ||| x.setWidth 32 <<< 8
    lineNumber (field w 0 4).toNat = some n ∧ bit w 4 = b ∧ field w 8 k = x
      ∧ ∀ mask : Word, onlyBits 15#32 mask = true → onlyBits 16#32 mask = true →
          onlyBits (place 8 (BitVec.allOnes k)) mask = true → onlyBits w mask = true := by
  intro w
  have hw : w = BitVec.ofNat 32 n.val ||| (placeFlag 4 b ||| place 8 x) := BitVec.or_assoc _ _ _
  clear_value w
  subst hw
  refine ⟨lineNumber_field ?_, ?_, ?_, fun mask hline hflag hfield => ?_⟩
  · simp (disch := omega) [field, BitVec.extractLsb'_or]
  · rw [lineWord_eq, bit, BitVec.getLsbD_or, BitVec.getLsbD_or, getLsbD_place_outside _ (by decide),
      getLsbD_placeFlag_self _ (by decide), getLsbD_place_outside _ (by omega), Bool.false_or, Bool.or_false]
  · rw [lineWord_eq, field]
    simp (disch := omega) [BitVec.extractLsb'_or]
  · exact onlyBits_or (onlyBits_line n hline) (onlyBits_or (onlyBits_place _ hflag) (onlyBits_place _ hfield))

/-! ### SHAPE_LINE -/

theorem State.shapeLine_badValue (hbody : m.body = [w])
    (h : 12 ≤ (w.extractLsb' 0 4).toNat ∨ w.extractLsb' 8 2 = 3#2 ∨ w &&& 0xFFFFFCE0#32 ≠ 0#32) :
    s.shapeLine m = refuse .badValue s := by
  rw [State.shapeLine, Message.word_zero hbody]
  obtain hline | hsafe | hbits := h
  · rw [lineNumber_eq_none (n := (field w 0 4).toNat) hline]
  · rw [show field w 8 2 = 3#2 from hsafe]
    cases lineNumber (field w 0 4).toNat <;> rfl
  · rw [onlyBits_eq_false (mask := 0x31F#32).mpr hbits]
    split <;> rfl

/-- A word that names a line, its polarity and its safe level. -/
theorem State.shapeLine_eq (hbody : m.body =
      [BitVec.ofNat 32 n.val ||| (BitVec.ofBool inverted).setWidth 32 <<< 4 ||| (safeCode safe).setWidth 32 <<< 8]) :
    s.shapeLine m = s.shapeTo n inverted safe := by
  obtain ⟨hline, hinverted, hsafe, hbits⟩ := shapeWord_fields n inverted (safeCode safe) (by decide)
  rw [State.shapeLine, Message.word_zero hbody, hline, hsafe, hinverted, decodeSafe_code]
  exact if_pos (hbits _ rfl rfl rfl)

/-- The other line of a pair is the partner. -/
theorem partnerLine_eq (hpair : pairOfLine p = pairOfLine n) (hne : p ≠ n) : partnerLine n = p := by
  simp only [pairOfLine, ne_eq, Fin.ext_iff] at hpair hne
  simp only [partnerLine, oddLine, evenLine, pairOfLine, Fin.ext_iff]
  split <;> simp only <;> omega

theorem State.pairing_single_iff : s.pairing n = .single ↔ (s.pair (pairOfLine n)).paired = false := by
  unfold State.pairing
  cases (s.pair (pairOfLine n)).paired with
  | false => simp
  | true => simp only [if_true, Bool.true_eq_false, iff_false]; split <;> exact nofun

theorem Line.safeActive_iff {l : Line} : l.safeActive = true ↔ l.safe = l.activeLevel := beq_iff_eq

/-- SHAPE_LINE on a line and a shape: the checks of R154 in order, and the new shape. -/
theorem exec_shapeLine (h : s.takes m rest) (hm : m.isCommand 0x42#8 15#4 0#9) (hseal : s.sealLevel.toNat < 2)
    (hbody : m.body =
      [BitVec.ofNat 32 n.val ||| (BitVec.ofBool inverted).setWidth 32 <<< 4 ||| (safeCode safe).setWidth 32 <<< 8]) :
    let shaped := (s.line n).shaped inverted safe
    exec .shapeLine s = .next (if s.pairing n ≠ .single ∧ shaped.safeActive = true ∧ (s.line (partnerLine n)).safeActive = true
        then s.answered m rest .badValue []
      else if s.ownerLive (s.line n).owner = true then s.answered m rest .wrongState []
      else (s.setLine n shaped).answered m rest .done []) := by
  intro shaped
  rw [exec_word_below_seal (c := .shapeLine) rfl rfl h hm hseal hbody, State.shapeLine_eq hbody, State.shapeTo]
  simp only [State.admitReply_ite]
  rfl

/-- Settles O35: the checks and the shape are those of the row, and the partner is the other line of the pair. -/
theorem shapeLineSetsPolarityAndSafe : Obligations.ShapeLineSetsPolarityAndSafe := by
  refine ⟨fun s m rest w h hm hseal hbody hbad => ?bad, fun s m rest n p inverted safe h hm hseal hpair hne hbody => ?shape⟩
  case bad =>
    rw [exec_word_below_seal (c := .shapeLine) rfl rfl h hm hseal hbody, State.shapeLine_badValue hbody hbad]
    rfl
  case shape =>
    intro shaped clash live
    have hclash : (s.pairing n ≠ .single ∧ shaped.safeActive = true ∧ (s.line p).safeActive = true) ↔ clash := by
      rw [ne_eq, State.pairing_single_iff, Bool.not_eq_false, Line.safeActive_iff, Line.safeActive_iff]
    have hlive : s.ownerLive (s.line n).owner = true ↔ live := State.ownerLive_iff
    rw [exec_shapeLine h hm hseal hbody, partnerLine_eq hpair hne]
    refine ⟨fun hc => ?_, fun hc hl => ?_, fun hc hl => ?_⟩
    · exact congrArg _ (if_pos (hclash.mpr hc))
    · exact congrArg _ ((if_neg (hclash.not.mpr hc)).trans (if_pos (hlive.mpr hl)))
    · exact congrArg _ ((if_neg (hclash.not.mpr hc)).trans (if_neg (hlive.not.mpr hl)))

end Sys2Proof.Machine
end

section
/-! SHAPE_PAIR (R144, R145, R155). -/

namespace Sys2Proof.Machine

variable {s : State} {m : Message} {rest : List Message} {w : Word} {j : Fin 6} {pairing : Bool} {gap : Byte}

/-! ### The words -/

theorem eq_val_of_lineNumber {k : Nat} {n : Fin 12} (h : lineNumber k = some n) : k = n.val := by
  unfold lineNumber at h
  split at h
  · cases h; rfl
  · cases h

/-- The line field of a word is odd when the lowest bit of the word is set. -/
theorem field_odd (h : w.getLsbD 0 = true) : (field w 0 4).toNat % 2 = 1 := by
  have hbit : (field w 0 4).getLsbD 0 = true := by rw [field, BitVec.getLsbD_extractLsb']; exact h
  rwa [BitVec.getLsbD, Nat.testBit_zero, decide_eq_true_eq] at hbit

theorem State.shapePair_badValue (hbody : m.body = [w])
    (h : w.getLsbD 0 = true ∨ 11 ≤ (w.extractLsb' 0 4).toNat ∨ w &&& 0xFFFF00E0#32 ≠ 0#32
      ∨ (w.getLsbD 4 = true ∧ w.extractLsb' 8 8 = 0#8) ∨ (w.getLsbD 4 = false ∧ w.extractLsb' 8 8 ≠ 0#8)) :
    s.shapePair m = refuse .badValue s := by
  rw [State.shapePair, Message.word_zero hbody]
  split
  next n hn =>
    have hval : (field w 0 4).toNat = n.val := eq_val_of_lineNumber hn
    refine if_neg fun ⟨heven, hbits, hgap⟩ => ?_
    obtain hodd | hhigh | hother | ⟨hpairs, hzero⟩ | ⟨hseparates, hsome⟩ := h
    · have := field_odd hodd; omega
    · have : 11 ≤ n.val := hval ▸ hhigh
      omega
    · exact hother (onlyBits_iff.mp hbits)
    · exact hgap.mp hpairs hzero
    · exact Bool.false_ne_true (hseparates.symm.trans (hgap.mpr hsome))
  next => rfl

theorem pairOfLine_evenLine (j : Fin 6) : pairOfLine (evenLine j) = j := by revert j; decide
theorem pairOfLine_oddLine (j : Fin 6) : pairOfLine (oddLine j) = j := by revert j; decide

/-- A word that names a pair, with a gap exactly when it pairs. -/
theorem State.shapePair_eq (hgap : pairing = true ↔ gap ≠ 0#8) (hbody : m.body =
      [BitVec.ofNat 32 (evenLine j).val ||| (BitVec.ofBool pairing).setWidth 32 <<< 4 ||| gap.setWidth 32 <<< 8]) :
    s.shapePair m = s.shapePairTo j pairing gap := by
  obtain ⟨hline, hpairing, hfield, hbits⟩ := shapeWord_fields (evenLine j) pairing gap (by decide)
  have heven : (evenLine j).val % 2 = 0 := Nat.mul_mod_right 2 j.val
  rw [State.shapePair, Message.word_zero hbody, hline, hpairing, hfield]
  simp only [pairOfLine_evenLine]
  exact if_pos ⟨heven, hbits _ rfl rfl rfl, hgap⟩

/-! ### Pairing, a new gap, separating -/

theorem State.setPair_setPair (s : State) (j : Fin 6) (p q : Pair) : (s.setPair j p).setPair j q = s.setPair j q := by
  simp [State.setPair, State.withMatrix, LineMatrix.setPair]

theorem evenLine_ne_oddLine (j : Fin 6) : evenLine j ≠ oddLine j := by revert j; decide

/-- Two lines paired: the odd line is INACTIVE, and an owned pair is in its gap. -/
theorem State.pairUp_eq (s : State) (j : Fin 6) (gap : Byte) : s.pairUp j gap = (s.clearLine (oddLine j)).setPair j
    ⟨true, gap, if (s.line (evenLine j)).owner = .nobody then none else some (gap.toNat * microsecond)⟩ := by
  have howned : ((s.clearLine (oddLine j)).setPair j ⟨true, gap, none⟩).ownedPair j = true ↔
      (s.line (evenLine j)).owner ≠ .nobody := by
    simp [State.ownedPair, State.clearLine, State.line_setLine, evenLine_ne_oddLine]
  by_cases hnobody : (s.line (evenLine j)).owner = .nobody
  · rw [if_pos hnobody]
    exact if_neg (howned.not.mpr (not_not_intro hnobody))
  · rw [if_neg hnobody]
    refine (if_pos (howned.mpr hnobody)).trans ?_
    rw [State.enterGap, State.pair_setPair_same, State.setPair_setPair]

/-- Everything an accepted SHAPE_PAIR does to the lines and pairs. -/
theorem State.repair_cases (s : State) (j : Fin 6) (pairing : Bool) (gap : Byte) :
    s.repair j pairing gap = { s with matrix := (s.repair j pairing gap).matrix }
      ∧ (s.repair j pairing gap).matrix.shut = s.matrix.shut
      ∧ (∀ l : Fin 12, (s.repair j pairing gap).line l =
          if l = oddLine j ∧ pairing = true ∧ (s.pair j).paired = false then (s.line l).cleared else s.line l)
      ∧ (∀ i : Fin 6, i ≠ j → (s.repair j pairing gap).pair i = s.pair i)
      ∧ (s.repair j pairing gap).pair j = match pairing, (s.pair j).paired with
        | true, false => ⟨true, gap, if (s.line (evenLine j)).owner = .nobody then none else some (gap.toNat * microsecond)⟩
        | true, true => { s.pair j with gap := gap }
        | false, true => { s.pair j with paired := false, gapLeft := none }
        | false, false => s.pair j := by
  unfold State.repair
  cases pairing <;> cases hpaired : (s.pair j).paired
  case false.false => exact ⟨rfl, rfl, fun l => by simp, fun i _ => rfl, rfl⟩
  case false.true | true.true =>
    exact ⟨rfl, rfl, fun l => by simp, fun i hi => by simp [State.pair_setPair, hi], State.pair_setPair_same ..⟩
  case true.false =>
    simp only [State.pairUp_eq]
    refine ⟨rfl, rfl, fun l => ?_, fun i hi => ?_, State.pair_setPair_same ..⟩
    · by_cases hl : l = oddLine j
      · subst hl; simp [State.clearLine, Line.cleared]
      · simp [State.clearLine, State.line_setLine, hl]
    · simp [State.pair_setPair, hi, State.clearLine]

/-! ### The row -/

/-- SHAPE_PAIR on a pair: the checks 2 to 5 of R155 in order, and the effect. -/
theorem exec_shapePair (h : s.takes m rest) (hm : m.isCommand 0x43#8 15#4 0#9) (hseal : s.sealLevel.toNat < 2)
    (hgap : pairing = true ↔ gap ≠ 0#8) (hbody : m.body =
      [BitVec.ofNat 32 (evenLine j).val ||| (BitVec.ofBool pairing).setWidth 32 <<< 4 ||| gap.setWidth 32 <<< 8]) :
    let even := s.line (evenLine j)
    let odd := s.line (oddLine j)
    exec .shapePair s = .next (if pairing = true ∧ even.safeActive = true ∧ odd.safeActive = true
        then s.answered m rest .badValue []
      else if pairing = true ∧ even.owner ≠ odd.owner then s.answered m rest .lineTaken []
      else if s.ownerLive even.owner = true then s.answered m rest .wrongState []
      else if pairing = true ∧ s.ownerMarks even.owner (oddLine j) = true then s.answered m rest .wrongState []
      else ((s.takeMessage rest).repair j pairing gap).admitReply m (.done [])) := by
  intro even odd
  rw [exec_word_below_seal (c := .shapePair) rfl rfl h hm hseal hbody, State.shapePair_eq hgap hbody, State.shapePairTo]
  simp only [State.admitReply_ite]
  rfl

/-- Settles O36: the checks are those of the row, and the effect is that of `State.repair_cases`. -/
theorem shapePairPairsAndSeparates : Obligations.ShapePairPairsAndSeparates := by
  refine ⟨fun s m rest w h hm hseal hbody hbad => ?bad, fun s m rest j pairing gap h hm hseal hgap hbody => ?shape⟩
  case bad =>
    rw [exec_word_below_seal (c := .shapePair) rfl rfl h hm hseal hbody, State.shapePair_badValue hbody hbad]
    rfl
  case shape =>
    intro even odd clash strange held
    have hclash : (pairing = true ∧ even.safeActive = true ∧ odd.safeActive = true) ↔ clash := by
      rw [Line.safeActive_iff, Line.safeActive_iff]
    have hheld : held ↔ s.ownerLive even.owner = true ∨ (pairing = true ∧ s.ownerMarks even.owner (oddLine j) = true) := by
      rw [State.ownerLive_iff, State.ownerMarks_iff, ← exists_and_left, ← exists_or]
      exact exists_congr fun k => and_or_left.trans (or_congr_right and_left_comm)
    rw [exec_shapePair (j := j) h hm hseal hgap hbody]
    refine ⟨fun hc => ?_, fun hc hs => ?_, fun hc hs hh => ?_, fun hc hs hh => ?_⟩
    · rw [if_pos (hclash.mpr hc)]
    all_goals rw [if_neg (hclash.not.mpr hc)]
    · rw [if_pos hs]
    all_goals rw [if_neg hs]
    · obtain hlive | hmarks := hheld.mp hh
      · rw [if_pos hlive]
      · rw [if_pos hmarks, ite_self]
    · obtain ⟨hlive, hmarks⟩ := not_or.mp (hheld.not.mp hh)
      rw [if_neg hlive, if_neg hmarks]
      obtain ⟨hfields, hshut, hlines, hothers, hpair⟩ := (s.takeMessage rest).repair_cases j pairing gap
      refine ⟨_, rfl, State.admitReply_of_matrix hfields _ _, hshut, fun l hl => ?_, ?_, hothers, hpair⟩
      · exact (hlines l).trans (if_neg fun hodd => hl hodd.1)
      · exact (hlines (oddLine j)).trans (by simp only [true_and]; rfl)

end Sys2Proof.Machine
end

section
/-! DRIVE_LINES (R144, R156), line actions, and the ends of pulses and gaps (R140, R141, R144). -/

namespace Sys2Proof.Machine

variable {s : State} {m : Message} {rest : List Message} {w : Word} {n : Fin 12} {j : Fin 6}

theorem State.ownedPair_iff : s.ownedPair j = true ↔ (s.pair j).paired = true ∧ (s.line (evenLine j)).owner ≠ .nobody := by
  rw [State.ownedPair, Bool.and_eq_true, bne_iff_ne]

/-! ### DRIVE_LINES -/

/-- The words that DRIVE_LINES refuses. -/
theorem State.driveLines_refused_iff : (onlyBits w 0x0FFF0FFF#32 = false
      ∨ lineNumbers.any (fun n => bit w n.val && !s.drivable n) = true) ↔
    w &&& 0xF000F000#32 ≠ 0#32 ∨ ∃ n : Fin 12, w.getLsbD n.val = true ∧ ((s.line n).owner ≠ .host ∨ s.pairing n = .pairOdd) := by
  refine or_congr onlyBits_eq_false ?_
  simp [mem_lineNumbers, bit, State.drivable]

/-- DRIVE_LINES with one word: its check, and the lines driven one by one. -/
theorem exec_driveLines (h : s.takes m rest) (hm : m.isCommand 0x44#8 15#4 0#9) (hbody : m.body = [w]) :
    exec .driveLines s = .next (if onlyBits w 0x0FFF0FFF#32 = false
          ∨ lineNumbers.any (fun n => bit w n.val && !s.drivable n) = true then s.answered m rest .badValue []
      else (lineNumbers.foldl (State.driveLine w) (s.takeMessage rest)).admitReply m (.done [])) := by
  rw [exec_device_word (c := .driveLines) rfl rfl h hm hbody, State.driveLines, Message.word_zero hbody]
  simp only [State.admitReply_ite]
  rfl

/-- Settles O37: the lines are those of `State.driveLines_cases`; a named line is the host's, so its pair is owned. -/
theorem driveLinesSetsNamedLines : Obligations.DriveLinesSetsNamedLines := by
  intro s m rest w h hm hbody refused
  have hrefused : _ ↔ refused := State.driveLines_refused_iff
  rw [exec_driveLines h hm hbody]
  refine ⟨fun hbad => ?bad, fun hgood => ?driven⟩
  case bad => rw [if_pos (hrefused.mpr hbad)]
  case driven =>
    rw [if_neg (hrefused.not.mpr hgood)]
    obtain ⟨hfields, hshut, hlines, hpairs⟩ := (s.takeMessage rest).driveLines_cases w
    refine ⟨_, rfl, State.admitReply_of_matrix hfields _ _, hshut, hlines, fun j => (hpairs j).trans ?_⟩
    refine if_congr ?_ rfl rfl
    rw [State.admitReply_line, hlines, State.ownedPair_iff]
    simp only [State.takeMessage_line, State.takeMessage_pair, State.takeMessage_trip]
    by_cases hnamed : w.getLsbD (evenLine j).val = true
    · have hhost : (s.line (evenLine j)).owner = .host := by
        by_contra hother
        exact hgood (.inr ⟨evenLine j, hnamed, .inl hother⟩)
      rw [if_pos hnamed, hhost]
      exact ⟨fun ⟨_, hchange, ⟨hpaired, _⟩, hpermit⟩ => ⟨hpermit, hpaired, hchange.symm⟩,
        fun ⟨hpermit, hpaired, hchange⟩ => ⟨hnamed, hchange.symm, ⟨hpaired, nofun⟩, hpermit⟩⟩
    · rw [if_neg hnamed]
      exact ⟨fun hnow => absurd hnow.1 hnamed, fun hnow => absurd rfl hnow.2.2⟩

/-! ### A new logical state of one line (R140, R144) -/

/-- The gap that a new logical state of a line begins, by the pair whose reference the line is. -/
theorem State.setLogical_pair (s : State) (n : Fin 12) (active : Bool) (pulse : Option Nat) (j : Fin 6) :
    (s.setLogical n active pulse).pair j =
      if n = evenLine j ∧ s.ownedPair j = true ∧ s.trip.permit = .permitted ∧ (s.line n).active ≠ active
      then (s.pair j).inGap else s.pair j := by
  obtain ⟨-, -, -, hpairs⟩ := s.setLogical_cases n active pulse
  refine (hpairs j).trans (if_congr ?_ rfl rfl)
  have hreference := s.pairEven_iff n j
  constructor
  · rintro ⟨rfl, hchange, heven, howned, hpermit⟩
    exact ⟨(hreference.mp ⟨rfl, heven⟩).1, howned, hpermit, hchange⟩
  · rintro ⟨hn, howned, hpermit, hchange⟩
    obtain ⟨rfl, heven⟩ := hreference.mpr ⟨hn, (State.ownedPair_iff.mp howned).1⟩
    exact ⟨rfl, hchange, heven, howned, hpermit⟩

/-- The logical state that a line action gives a line. -/
def LineAction.activeAfter (a : LineAction) (l : Line) : Bool :=
  match a with
  | .set | .pulse _ => true
  | .clear => false
  | .toggle => !l.active

/-- The pulse timer that a line action gives a line. -/
def LineAction.pulseAfter : LineAction → Option Nat
  | .pulse width => some (width.toNat * millisecond)
  | .set | .clear | .toggle => none

theorem State.lineAction_eq (s : State) (n : Fin 12) (a : LineAction) :
    s.lineAction n a = s.setLogical n (a.activeAfter (s.line n)) a.pulseAfter := by cases a <;> rfl

/-! ### PULSE_END and GAP_END -/

theorem exec_pulseEnd (h : (s.line n).pulseLeft = some 0) : exec (.pulseEnd n) s = .next (s.setLogical n false none) :=
  congrArg _ (if_pos h)

theorem exec_gapEnd (h : (s.pair j).gapLeft = some 0) : exec (.gapEnd j) s = .next (s.cancelGap j) :=
  congrArg _ (if_pos h)

/-- Settles O39: a line action and a pulse end are a new logical state of their line. -/
theorem pulsesAndGapsEnd : Obligations.PulsesAndGapsEnd := by
  refine ⟨fun s => ⟨fun n hpulse => ?pulse, fun j hgap => exec_gapEnd hgap⟩, fun s n a => ?action⟩
  case pulse =>
    obtain ⟨hfields, hshut, hlines, -⟩ := s.setLogical_cases n false none
    refine ⟨_, exec_pulseEnd hpulse, hfields, hshut, (hlines n).trans (if_pos rfl), fun l hl => (hlines l).trans (if_neg hl),
      fun j => ?_⟩
    simp only [State.setLogical_pair, ne_eq, Bool.not_eq_false]
  case action =>
    intro t
    have ht : t = s.setLogical n (a.activeAfter (s.line n)) a.pulseAfter := s.lineAction_eq n a
    obtain ⟨hfields, hshut, hlines, -⟩ := s.setLogical_cases n (a.activeAfter (s.line n)) a.pulseAfter
    have hpairs := s.setLogical_pair n (a.activeAfter (s.line n)) a.pulseAfter
    rw [← ht] at hfields hshut hlines hpairs
    have hline : t.line n = { s.line n with active := a.activeAfter (s.line n), pulseLeft := a.pulseAfter } :=
      (hlines n).trans (if_pos rfl)
    refine ⟨hfields, hshut, hline.trans ?_, fun l hl => (hlines l).trans (if_neg hl), fun j => (hpairs j).trans ?_⟩
    · cases a <;> rfl
    · refine if_congr (and_congr_right fun hn => ?_) rfl rfl
      rw [hline, State.ownedPair_iff, hn, and_assoc, ne_comm (a := (s.line (evenLine j)).active)]

end Sys2Proof.Machine
end

section
/-! The two pins of a pair (R145, R147, R148). -/

namespace Sys2Proof.Machine

variable {s : State} {j : Fin 6}

theorem Line.inactiveLevel_ne (l : Line) : l.inactiveLevel ≠ l.activeLevel := by
  unfold Line.inactiveLevel Line.activeLevel; cases l.inverted <;> decide

/-- A pin that is not driven is not at an active level. -/
theorem Line.opened_ne_activeLevel (l : Line) : PinLevel.opened ≠ l.activeLevel := by
  unfold Line.activeLevel; cases l.inverted <;> decide

/-- The level of a driven line of a pair for its target (R147). -/
def Line.targetLevel (l : Line) (side : Pairing) : PairTarget → PinLevel
  | .safe => l.safe
  | .even => l.levelFor (side == .pairEven)
  | .odd => l.levelFor (side == .pairOdd)

/-- A line of a pair is OPEN, at its inactive level through the gap, or at the level for its target. -/
theorem State.resolvedPin_of_paired {n : Fin 12} (hpaired : s.pairing n ≠ .single) :
    s.resolvedPin n = .opened ∨ s.resolvedPin n = (s.line n).inactiveLevel
      ∨ s.resolvedPin n = (s.line n).targetLevel (s.pairing n) (s.target (pairOfLine n)) := by
  have driven : ∀ level : PinLevel, (if (s.line n).owner = .nobody then .opened else level) = .opened
      ∨ (if (s.line n).owner = .nobody then .opened else level) = level := fun level => by
    split
    · exact .inl rfl
    · exact .inr rfl
  unfold State.resolvedPin
  simp only
  split
  · exact .inl rfl
  · split
    · exact .inl rfl
    · cases hside : s.pairing n with
      | single => exact absurd hside hpaired
      | pairEven | pairOdd =>
        simp only
        split
        · exact .inr (.inl rfl)
        · cases s.target (pairOfLine n) with
          | safe => exact .inr (.inr rfl)
          | even | odd => exact (driven _).imp_right .inr

theorem Line.levelFor_eq_activeLevel {l : Line} {b : Bool} (h : l.levelFor b = l.activeLevel) : b = true := by
  cases b with
  | false => exact absurd h l.inactiveLevel_ne
  | true => rfl

/-- A line of a pair is at its active level under SAFE only as its safe level, and otherwise only as the line of its
target. -/
theorem State.target_of_resolvedPin {n : Fin 12} (hpaired : s.pairing n ≠ .single)
    (h : s.resolvedPin n = (s.line n).activeLevel) :
    (s.target (pairOfLine n) = .safe → (s.line n).safeActive = true)
      ∧ (s.target (pairOfLine n) = .even → s.pairing n = .pairEven)
      ∧ (s.target (pairOfLine n) = .odd → s.pairing n = .pairOdd) := by
  obtain hopen | hgap | hlevel := s.resolvedPin_of_paired hpaired
  · exact absurd (hopen.symm.trans h) (Line.opened_ne_activeLevel _)
  · exact absurd (hgap.symm.trans h) (Line.inactiveLevel_ne _)
  · rw [h] at hlevel
    refine ⟨fun ht => ?_, fun ht => ?_, fun ht => ?_⟩
    all_goals rw [ht] at hlevel
    · exact Line.safeActive_iff.mpr hlevel.symm
    · exact eq_of_beq (Line.levelFor_eq_activeLevel hlevel.symm)
    · exact eq_of_beq (Line.levelFor_eq_activeLevel hlevel.symm)

/-- Between instants: the target names one of the two lines, and under SAFE their safe levels are not both active. -/
theorem State.resolvedPins_not_both (hwf : s.pairWf j) (hpaired : (s.pair j).paired = true)
    (heven : s.resolvedPin (evenLine j) = (s.line (evenLine j)).activeLevel)
    (hodd : s.resolvedPin (oddLine j) = (s.line (oddLine j)).activeLevel) : False := by
  have hevenPair : pairOfLine (evenLine j) = j := pairOfLine_evenLine j
  have hoddPair : pairOfLine (oddLine j) = j := pairOfLine_oddLine j
  have hevenSide : s.pairing (evenLine j) = .pairEven := ((s.pairEven_iff _ j).mpr ⟨rfl, hpaired⟩).2
  have hoddSide : s.pairing (oddLine j) = .pairOdd := (s.pairOdd_iff _).mpr (by rw [hoddPair]; exact ⟨hpaired, rfl⟩)
  obtain ⟨hsafe, -, hisOdd⟩ := State.target_of_resolvedPin (by rw [hevenSide]; exact nofun) heven
  obtain ⟨hsafe', hisEven, -⟩ := State.target_of_resolvedPin (by rw [hoddSide]; exact nofun) hodd
  rw [hevenPair] at hsafe hisOdd
  rw [hoddPair] at hsafe' hisEven
  cases htarget : s.target j with
  | safe =>
    obtain ⟨-, -, hnotBoth⟩ := hwf.1 hpaired
    rw [hsafe htarget, hsafe' htarget] at hnotBoth
    exact Bool.false_ne_true hnotBoth.symm
  | even => exact absurd (hoddSide.symm.trans (hisEven htarget)) nofun
  | odd => exact absurd (hevenSide.symm.trans (hisOdd htarget)) nofun

/-- Settles O38: a part that is not ready drives no pin, within an instant the held levels are sound, and between instants
the pins have their resolved levels. -/
theorem pairPinsNeverBothActive : Obligations.PairPinsNeverBothActive := by
  rintro s j ⟨-, hpairs, -, hheld⟩ hpaired ⟨heven, hodd⟩
  by_cases hready : s.power.ready = true
  · cases hinstant : s.instant with
    | none =>
      rw [State.pinLevel_between hready hinstant] at heven hodd
      exact State.resolvedPins_not_both (hpairs j) hpaired heven hodd
    | some held =>
      rw [State.pinLevel_within hready hinstant] at heven hodd
      have hnotBoth := hheld held hinstant j hpaired
      rw [heven, hodd, beq_self_eq_true, beq_self_eq_true] at hnotBoth
      exact Bool.false_ne_true hnotBoth.symm
  · have hopen : s.pinLevel (evenLine j) = .opened := if_pos (by rw [Bool.eq_false_iff.mpr hready]; rfl)
    exact Line.opened_ne_activeLevel _ (hopen.symm.trans heven)

end Sys2Proof.Machine
end

section
/-! SET_TRIP, TRIP and RESUME (R164, R168, R172, R173). -/

namespace Sys2Proof.Machine

variable {s : State} {m : Message} {rest : List Message} {w0 w1 : Word} {c : TripConfig}

/-! ### SET_TRIP -/

/-- No channel has the code 6. -/
theorem decodeAuto_six : decodeAuto 6#3 = none := by decide

/-- The words of SET_TRIP that R172 refuses are those of no configuration. -/
theorem decodeTrip_of_invalid (h : w0.extractLsb' 6 2 ≠ 0#2 ∨ w0.extractLsb' 8 3 = 6#3 ∨ w0.extractLsb' 11 5 ≠ 0#5
    ∨ w0.extractLsb' 24 8 ≠ 0#8 ∨ w1 ≠ ~~~w0) : decodeTrip w0 w1 = none := by
  cases hauto : decodeAuto (field w0 8 3) with
  | none => rw [decodeTrip, hauto]
  | some auto =>
    rw [decodeTrip, hauto]
    refine if_neg fun hgood => ?_
    obtain ⟨hlow, hmiddle, hhigh, hcomplement⟩ := hgood
    obtain hbad | hsix | hbad | hbad | hbad := h
    · exact hbad hlow
    · rw [show field w0 8 3 = 6#3 from hsix, decodeAuto_six] at hauto
      cases hauto
    · exact hbad hmiddle
    · exact hbad hhigh
    · exact hbad hcomplement

/-- SET_TRIP with two words passes the checks of its header at seal level 0. -/
theorem exec_setTrip (h : s.takes m rest) (hm : m.isCommand 0x48#8 15#4 0#9) (hseal : s.sealLevel = 0#2)
    (hbody : m.body = [w0, w1]) : exec .setTrip s =
      .next (((s.takeMessage rest).setTrip m).1.admitReply m ((s.takeMessage rest).setTrip m).2) := by
  rw [exec_engineCommand (c := .setTrip) rfl, State.command_device h hm rfl rfl]
  · simp [setTripForm, CommandForm.frozenFrom, CommandForm.device, hbody]
  · simp [setTripForm, CommandForm.frozenFrom, hseal]

theorem State.setTrip_of_invalid (hbody : m.body = [w0, w1]) (h : decodeTrip w0 w1 = none) :
    s.setTrip m = refuse .badValue s := by
  simp [State.setTrip, Message.word, hbody, h]

theorem State.setTrip_of_valid (hbody : m.body = [w0, w1]) (h : decodeTrip w0 w1 = some c) : s.setTrip m =
    if s.trip.permit = .permitted ∧ s.enabledCausesUnder c ≠ 0#32 then (s, ⟨.causePresent, [s.enabledCausesUnder c]⟩)
    else completed (s.configureTrip c) := by
  simp [State.setTrip, Message.word, hbody, h]

theorem exec_setTrip_invalid (h : s.takes m rest) (hm : m.isCommand 0x48#8 15#4 0#9) (hseal : s.sealLevel = 0#2)
    (hbody : m.body = [w0, w1]) (hbad : decodeTrip w0 w1 = none) :
    exec .setTrip s = .next (s.answered m rest .badValue []) := by
  rw [exec_setTrip h hm hseal hbody, State.setTrip_of_invalid hbody hbad]
  rfl

theorem TripUnit.restartWatch_eq (t : TripUnit) (c : TripConfig) : t.restartWatch c =
    if c.watch = 0#8 then none else if t.hostLost then t.watchLeft else some (c.watch.toNat * tenMilliseconds) := by
  unfold TripUnit.restartWatch TripConfig.fullWatch
  by_cases hwatch : c.watch = 0#8
  · rw [if_pos hwatch, if_pos hwatch]
  · rw [if_neg hwatch, if_neg hwatch, if_neg hwatch]

/-- An accepted SET_TRIP sets the configuration and the watch, and the TRIP_INPUT record follows the polarity. -/
theorem State.configureTrip_eq (s : State) (c : TripConfig) : s.configureTrip c =
    { s with
      trip := { s.trip with config := c, watchLeft := s.trip.restartWatch c }
      ledger := { s.ledger with records := s.ledger.records.map fun r =>
        if r.source = .tripIn ∧ r.kind = .tripInput then { r with active := s.tripInPresentUnder c.tripInActiveHigh }
        else r } } :=
  State.setCondition_eq _ _ _ _

/-- Settles O40: words that are no configuration are refused, and a configuration is refused or set. -/
theorem setTripConfiguresOrRefuses : Obligations.SetTripConfiguresOrRefuses := by
  intro s m rest c h hm hseal
  refine ⟨fun w hw hbody => ?complement, fun w0 w1 hbody hbad => ?invalid, fun hbody => ?valid⟩
  case complement =>
    exact exec_setTrip_invalid h hm hseal hbody (decodeTrip_of_invalid (.inr (.inr (.inr (.inr hw)))))
  case invalid => exact exec_setTrip_invalid h hm hseal hbody (decodeTrip_of_invalid hbad)
  case valid =>
    rw [exec_setTrip h hm hseal hbody, State.setTrip_of_valid hbody (decodeTrip_tripWord c)]
    have hcauses : (s.takeMessage rest).enabledCausesUnder c = s.enabledCausesUnder c := rfl
    rw [hcauses, State.takeMessage_trip]
    refine ⟨fun hpermit hcause => ?refused, fun hgranted => ?set⟩
    case refused =>
      rw [if_pos ⟨hpermit, hcause⟩]
      rfl
    case set =>
      have hkept : ¬(s.trip.permit = .permitted ∧ s.enabledCausesUnder c ≠ 0#32) := fun ⟨hpermit, hcause⟩ =>
        hgranted.elim (absurd hpermit) hcause
      rw [if_neg hkept, State.configureTrip_eq, State.takeMessage_trip, s.trip.restartWatch_eq]
      rfl

/-! ### TRIP and RESUME -/

/-- A device-wide command without body passes the checks of its header. -/
theorem exec_device_empty {i : Instr} {f : CommandForm} {body : Message → State → State × Reply}
    (hc : engineCommand i = some (f, body)) (hf : f = .device f.kind 0) (h : s.takes m rest)
    (hm : m.isCommand f.kind 15#4 0#9) (hbody : m.body = []) :
    exec i s = .next ((body m (s.takeMessage rest)).1.admitReply m (body m (s.takeMessage rest)).2) := by
  rw [exec_engineCommand hc, State.command_device h hm rfl (by rw [hf]; rfl) (by rw [hf]; simp [CommandForm.device, hbody])
    (by rw [hf]; exact nofun)]

/-- The SOFT occurrence of TRIP withdraws the permit when it is PERMITTED (R164, R173). -/
theorem State.softTrip_cases (s : State) :
    s.occurrenceTaken s.softTrip .soft .softTrip false (s.trip.permit == .permitted) .soft := by
  have h := s.causeAsserts_cases .soft .softTrip false true .soft
  rwa [Bool.true_and] at h

theorem State.resume_of_permitted (hpermit : s.trip.permit = .permitted) : s.resume = refuse .nothingPending s :=
  if_pos hpermit

theorem State.resume_of_cause (hpermit : s.trip.permit ≠ .permitted) (hcause : s.enabledCauses ≠ 0#32) :
    s.resume = (s, ⟨.causePresent, [s.enabledCauses]⟩) := by
  rw [State.resume, if_neg hpermit, if_pos hcause]

theorem State.resume_of_free (hpermit : s.trip.permit ≠ .permitted) (hfree : s.enabledCauses = 0#32) :
    s.resume = completed (s.grant none) := by
  rw [State.resume, if_neg hpermit, if_neg (not_not_intro hfree)]

/-- Settles O41: TRIP is one SOFT occurrence, and RESUME is refused for either reason or grants. -/
theorem tripWithdrawsResumeGrants : Obligations.TripWithdrawsResumeGrants := by
  intro s m rest h hbody
  refine ⟨fun hm => ?trip, fun hm => ?resume⟩
  case trip =>
    refine ⟨_, (s.takeMessage rest).softTrip_cases, ?_⟩
    rw [exec_device_empty (i := .trip) rfl rfl h hm hbody]
    simp only [placeFlag, place, BitVec.shiftLeft_zero, State.takeMessage_trip, Reply.done]
  case resume =>
    rw [exec_device_empty (i := .resume) rfl rfl h hm hbody]
    refine ⟨fun hpermit => ?_, fun hpermit hcause => ?_, fun hpermit hfree => ?_⟩
    · rw [State.resume_of_permitted (s := s.takeMessage rest) hpermit]; rfl
    · rw [State.resume_of_cause (s := s.takeMessage rest) hpermit hcause]; rfl
    · rw [State.resume_of_free (s := s.takeMessage rest) hpermit hfree]
      obtain ⟨hfields, hnotes, hgaps, hordinal⟩ := (s.takeMessage rest).grant_cases none hpermit
      exact ⟨_, rfl, hfields, hnotes, hgaps, hordinal⟩

end Sys2Proof.Machine
end

section
/-! The trip causes of the safety inputs and of the watch: their assertions, their releases, and the first instant, in which
an owed assertion is taken (R149, R161, R164, R165, R170, R171, R187). -/

namespace Sys2Proof.Machine

variable {s : State} {b : Fin 3}

/-! ### A safety input takes its level (R38, R161) -/

section
variable {i : SafetyInput}

theorem SafetyInput.assert_of_unowed (h : i.owed = false) : i.assert = ⟨i.input.flipped, false⟩ := by
  rw [SafetyInput.assert, h]; rfl

theorem SafetyInput.assert_of_owed (h : i.owed = true) : i.assert = ⟨i.input, false⟩ := by
  rw [SafetyInput.assert, h]; rfl

theorem SafetyInput.release_of_unowed (h : i.owed = false) : i.release = ⟨i.input.flipped, false⟩ := by
  rw [SafetyInput.release, h]; rfl

end

/-! ### A cause releases (R161, R165) -/

theorem State.tripInReleases_iff : s.tripInReleases = true ↔ s.safety.tripIn.owed = false
    ∧ s.safety.tripIn.input.heldFor 4 ∧ s.safety.tripIn.input.filtered = s.trip.config.tripInActiveHigh := by
  simp only [State.tripInReleases, Bool.and_eq_true, Bool.not_eq_true', FilteredInput.due_iff, beq_iff_eq, safetyFilterTime,
    and_assoc]

theorem State.overloadReleases_iff : s.overloadReleases b = true ↔ s.safety.ovl[b].owed = false
    ∧ s.safety.ovl[b].input.heldFor 4 ∧ s.safety.ovl[b].input.filtered = true := by
  simp only [State.overloadReleases, Bool.and_eq_true, Bool.not_eq_true', FilteredInput.due_iff, safetyFilterTime, and_assoc]

theorem State.supplyReleases_iff : s.supplyReleases = true ↔ s.safety.supplyOk.owed = false
    ∧ s.safety.supplyOk.input.heldFor 4 ∧ s.safety.supplyOk.input.filtered = false := by
  simp only [State.supplyReleases, Bool.and_eq_true, Bool.not_eq_true', FilteredInput.due_iff, safetyFilterTime, and_assoc]

/-- Settles O43: the input takes its release, and the condition of its record ends. -/
theorem causesReleaseQuietly : Obligations.CausesReleaseQuietly := by
  refine fun s => ⟨fun howed hheld hlevel => ?tripIn, fun b howed hheld hlevel => ?overload, fun howed hheld hlevel => ?supply⟩
  case tripIn =>
    show execTripInRelease s = _
    rw [execTripInRelease, if_pos (State.tripInReleases_iff.mpr ⟨howed, hheld, hlevel⟩), State.setCondition_false,
      SafetyInput.release_of_unowed howed]
    rfl
  case overload =>
    show execOverloadRelease b s = _
    rw [execOverloadRelease, if_pos (State.overloadReleases_iff.mpr ⟨howed, hheld, hlevel⟩), State.setCondition_false,
      SafetyInput.release_of_unowed howed]
    rfl
  case supply =>
    show execSupplyReturn s = _
    rw [execSupplyReturn, if_pos (State.supplyReleases_iff.mpr ⟨howed, hheld, hlevel⟩), State.setCondition_false,
      SafetyInput.release_of_unowed howed]
    rfl

/-! ### A cause asserts (R149, R161, R164, R170, R171) -/

theorem State.tripInAsserts_iff : s.tripInAsserts = true ↔ s.safety.tripIn.owed = true
    ∨ s.safety.tripIn.input.heldFor 4 ∧ s.safety.tripIn.input.filtered ≠ s.trip.config.tripInActiveHigh := by
  simp only [State.tripInAsserts, Bool.or_eq_true, Bool.and_eq_true, FilteredInput.due_iff, bne_iff_ne, safetyFilterTime]

theorem State.overloadAsserts_iff : s.overloadAsserts b = true ↔ s.safety.ovl[b].owed = true
    ∨ s.safety.ovl[b].input.heldFor 4 ∧ s.safety.ovl[b].input.filtered = false := by
  simp only [State.overloadAsserts, Bool.or_eq_true, Bool.and_eq_true, FilteredInput.due_iff, Bool.not_eq_true', safetyFilterTime]

theorem State.supplyAsserts_iff : s.supplyAsserts = true ↔ s.safety.supplyOk.owed = true
    ∨ s.safety.supplyOk.input.heldFor 4 ∧ s.safety.supplyOk.input.filtered = true := by
  simp only [State.supplyAsserts, Bool.or_eq_true, Bool.and_eq_true, FilteredInput.due_iff, safetyFilterTime]

/-- TRIP_IN asserts, as the input that it leaves shows: one occurrence, present when that input is at its active level. -/
theorem exec_tripInAssert {i : SafetyInput} (h : s.tripInAsserts = true) (hi : s.safety.tripIn.assert = i) {present : Bool}
    (hpresent : ((i.input.filtered == s.trip.config.tripInActiveHigh) && !i.owed) = present) :
    ∃ t, exec .tripInAssert s = .next t ∧ (s.withTripIn i).occurrenceTaken t
      .tripIn .tripInput present (s.trip.config.tripInEnable && (s.trip.permit == Permit.permitted)) .tripIn := by
  subst hi hpresent
  exact ⟨_, congrArg Host.Outcome.next (if_pos h), State.causeAsserts_cases _ _ _ _ _ _⟩

/-- OVLb asserts: its bank is shut, and one occurrence is taken. -/
theorem exec_overloadAssert {i : SafetyInput} (h : s.overloadAsserts b = true) (hi : s.safety.ovl[b].assert = i) :
    ∃ t, exec (.overloadAssert b) s = .next t ∧ ((s.withOvl b i).setShut b true).occurrenceTaken t
      (.bank b) .overload true (s.trip.config.overloadEnable && (s.trip.permit == Permit.permitted)) (.overload b) := by
  subst hi
  exact ⟨_, congrArg Host.Outcome.next (if_pos h), State.causeAsserts_cases _ _ _ _ _ _⟩

/-- SUPPLY_OK asserts: one occurrence. -/
theorem exec_supplyLoss {i : SafetyInput} (h : s.supplyAsserts = true) (hi : s.safety.supplyOk.assert = i) :
    ∃ t, exec .supplyLoss s = .next t ∧ (s.withSupplyOk i).occurrenceTaken t
      .supply .supplyLoss true (s.trip.config.supplyEnable && (s.trip.permit == Permit.permitted)) .supply := by
  subst hi
  exact ⟨_, congrArg Host.Outcome.next (if_pos h), State.causeAsserts_cases _ _ _ _ _ _⟩

/-- The watch expires: the host-lost condition begins, and one occurrence is taken. -/
theorem exec_watchExpiry (h : s.trip.watchLeft = some 0) : ∃ t, exec .watchExpiry s = .next t
    ∧ (s.withTrip { s.trip with watchLeft := none, hostLost := true }).occurrenceTaken t .host .hostLost true
      ((s.trip.config.hostLoss == HostLossPolicy.trip) && (s.trip.permit == Permit.permitted)) .hostLost :=
  ⟨_, congrArg Host.Outcome.next (if_pos h), State.causeAsserts_cases _ _ _ _ _ _⟩

/-- An accepted candidate that was away from a level is at it. -/
theorem FilteredInput.flipped_filtered_of_ne {i : FilteredInput} {level : Bool} (h : i.filtered ≠ level) : i.flipped.filtered = level :=
  Bool.not_eq_iff.mpr h

/-! ### No time passes (R32) -/

theorem FilteredInput.elapse_zero (i : FilteredInput) : i.elapse 0 = i := by
  rcases i with ⟨pin, filtered, _ | held⟩ <;> rfl

theorem SafetyInput.elapse_zero (i : SafetyInput) : i.elapse 0 = i := by
  rw [SafetyInput.elapse, i.input.elapse_zero]

theorem countDown_zero (t : Option Nat) : countDown 0 t = t := by cases t <;> rfl

theorem Line.elapse_zero (l : Line) : l.elapse 0 = l := by rw [Line.elapse, countDown_zero]

theorem Pair.elapse_zero (p : Pair) : p.elapse 0 = p := by rw [Pair.elapse, countDown_zero]

theorem Channel.elapse_zero (c : Channel) (frozen : Bool) : c.elapse 0 frozen = c := by
  have hwindow : (c.windowLeft.map fun w => { w with left := w.left - 0 }) = c.windowLeft := Option.map_id'
  rw [Channel.elapse, countDown_zero, hwindow, ite_self]

theorem State.elapse_zero (s : State) : s.elapse 0 = s := by
  have hcount : (s.elapse 0).inputs.count = s.inputs.count :=
    tabulate12_eq fun p => (s.countPin p).elapse_zero
  have hdin : (s.elapse 0).inputs.din = s.inputs.din :=
    Vector.ext fun i hi => (s.elapse_dinPin 0 ⟨i, hi⟩).trans (by rw [FilteredInput.elapse_zero]; rfl)
  have hovl : (s.elapse 0).safety.ovl = s.safety.ovl := tabulate3_eq fun b => s.safety.ovl[b].elapse_zero
  have htripIn : (s.elapse 0).safety.tripIn = s.safety.tripIn := s.safety.tripIn.elapse_zero
  have hsupply : (s.elapse 0).safety.supplyOk = s.safety.supplyOk := s.safety.supplyOk.elapse_zero
  have hchannels : (s.elapse 0).channels = s.channels :=
    State.channels_eq fun k => (s.elapse_chan 0 k).trans ((s.chan k).elapse_zero _)
  have hlines : (s.elapse 0).matrix.lines = s.matrix.lines :=
    State.lines_eq fun n => (s.elapse_line 0 n).trans (s.line n).elapse_zero
  have hpairs : (s.elapse 0).matrix.pairs = s.matrix.pairs :=
    State.pairs_eq fun j => (s.elapse_pair 0 j).trans (s.pair j).elapse_zero
  have hwatch : (s.elapse 0).trip.watchLeft = s.trip.watchLeft := countDown_zero _
  calc s.elapse 0 = { s with
          inputs := ⟨(s.elapse 0).inputs.count, (s.elapse 0).inputs.din, s.inputs.restarted⟩
          safety := ⟨(s.elapse 0).safety.tripIn, (s.elapse 0).safety.ovl, (s.elapse 0).safety.supplyOk⟩
          channels := (s.elapse 0).channels
          matrix := { s.matrix with lines := (s.elapse 0).matrix.lines, pairs := (s.elapse 0).matrix.pairs }
          trip := { s.trip with watchLeft := (s.elapse 0).trip.watchLeft } } := rfl
    _ = s := by rw [hcount, hdin, hovl, htripIn, hsupply, hchannels, hlines, hpairs, hwatch]

/-! ### The first instant (R161, R187) -/

theorem State.owesAssertion_iff : s.owesAssertion = true ↔ s.safety.tripIn.owed = true
    ∨ (∃ b : Fin 3, s.safety.ovl[b].owed = true) ∨ s.safety.supplyOk.owed = true := by
  simp only [State.owesAssertion, Bool.or_eq_true, List.any_eq_true, mem_bankNumbers, true_and, or_assoc]

/-- An owed assertion waits for no time. -/
theorem State.untilDue_of_owes (h : s.owesAssertion = true) : s.untilDue = some 0 := by
  rw [s.untilDue_eq_some, s.waits_iff]
  have hdue : ∀ i : SafetyInput, i.owed = true → i.left = some 0 := fun _ howed => if_pos howed
  refine ⟨.inr (.inr (.inl ?_)), fun _ _ => Nat.zero_le _⟩
  exact (State.owesAssertion_iff.mp h).imp (hdue _) (Or.imp (fun ⟨b, howed⟩ => ⟨b, hdue _ howed⟩) (hdue _))

/-- A part that owes an assertion begins the first instant at once, before the Command Engine takes a message. -/
theorem step_of_owes (hidle : s.pending = []) (hinit : s.initialising = false) (h : s.owesAssertion = true) :
    step s = .next (s.endInstant.beginInstant.withPending s.endInstant.dueOccurrences) := by
  rw [step_of_idle hidle, State.goOn_of_waits hinit (.inl h), State.passTime_of_due (State.untilDue_of_owes h), State.nextInstant,
    State.elapse_zero]

theorem mem_rowIf {x : Bool} {c : Instr} (h : x = true) : c ∈ rowIf x c := by
  rw [rowIf, if_pos h]; exact List.mem_singleton_self c

/-- What asserts at an instant is among its occurrences. -/
theorem State.mem_dueOccurrences {c : Instr} (h : c ∈ s.dueCausesAsserting) : c ∈ s.dueOccurrences := by
  unfold State.dueOccurrences
  simp only [List.mem_append, h, true_or]

theorem State.tripInAssert_due (h : s.tripInAsserts = true) : .tripInAssert ∈ s.dueOccurrences :=
  State.mem_dueOccurrences (List.mem_append_left _ (List.mem_append_left _ (mem_rowIf h)))

theorem State.overloadAssert_due (h : s.overloadAsserts b = true) : .overloadAssert b ∈ s.dueOccurrences :=
  State.mem_dueOccurrences (List.mem_append_left _ (List.mem_append_right _
    (List.mem_flatMap.mpr ⟨b, mem_bankNumbers b, mem_rowIf h⟩)))

theorem State.supplyLoss_due (h : s.supplyAsserts = true) : .supplyLoss ∈ s.dueOccurrences :=
  State.mem_dueOccurrences (List.mem_append_right _ (mem_rowIf h))

/-- Settles O42: the four causes that assert now, the three that are owed, and the first instant. -/
theorem causesAssertAndTrip : Obligations.CausesAssertAndTrip := by
  refine fun s => ⟨fun howed hheld hlevel => ?tripIn, fun b howed hheld hlevel => ?overload, fun howed hheld hlevel => ?supply,
    exec_watchExpiry, fun howed => ?owedTripIn, fun b howed => ?owedOverload, fun howed => ?owedSupply,
    fun hidle hinit howes => ?firstInstant⟩
  case tripIn =>
    exact exec_tripInAssert (State.tripInAsserts_iff.mpr (.inr ⟨hheld, hlevel⟩)) (SafetyInput.assert_of_unowed howed)
      (by rw [FilteredInput.flipped_filtered_of_ne hlevel, beq_self_eq_true]; rfl)
  case overload =>
    exact exec_overloadAssert (State.overloadAsserts_iff.mpr (.inr ⟨hheld, hlevel⟩)) (SafetyInput.assert_of_unowed howed)
  case supply =>
    exact exec_supplyLoss (State.supplyAsserts_iff.mpr (.inr ⟨hheld, hlevel⟩)) (SafetyInput.assert_of_unowed howed)
  case owedTripIn =>
    exact exec_tripInAssert (State.tripInAsserts_iff.mpr (.inl howed)) (SafetyInput.assert_of_owed howed) (Bool.and_true _)
  case owedOverload =>
    exact exec_overloadAssert (State.overloadAsserts_iff.mpr (.inl howed)) (SafetyInput.assert_of_owed howed)
  case owedSupply =>
    exact exec_supplyLoss (State.supplyAsserts_iff.mpr (.inl howed)) (SafetyInput.assert_of_owed howed)
  case firstInstant =>
    refine ⟨_, step_of_owes hidle hinit (State.owesAssertion_iff.mpr howes), rfl, fun howed => ?_, fun b howed => ?_,
      fun howed => ?_⟩
    · exact State.tripInAssert_due (s := s.endInstant) (State.tripInAsserts_iff.mpr (.inl howed))
    · exact State.overloadAssert_due (s := s.endInstant) (State.overloadAsserts_iff.mpr (.inl howed))
    · exact State.supplyLoss_due (s := s.endInstant) (State.supplyAsserts_iff.mpr (.inl howed))

end Sys2Proof.Machine
end

section
/-! Power-on reset, RST_N and loss of VDD (R6, R18, R35, R57, R158, R187, R190). -/

namespace Sys2Proof.Machine

variable {s : State} {p : Power}

/-- The supply, RST_N and the reset cause after each of the three resets (R35, R187). -/
def Power.afterReset (p : Power) (c : Instr) : Power where
  vddGood := if c = .powerOnReset then true else if c = .vddLoss then false else p.vddGood
  rstnLow := if c = .rstnReset then true else p.rstnLow
  ready := false
  cause := if c = .powerOnReset then .power else if c = .rstnReset then .pin else p.cause

theorem exec_reset {c : Instr} (hc : c ∈ [Instr.powerOnReset, .rstnReset, .vddLoss]) :
    exec c s = .next (s.powerOnValues (s.power.afterReset c)) := by
  simp only [List.mem_cons, List.not_mem_nil, or_false] at hc
  obtain rfl | rfl | rfl := hc <;> rfl

/-! ### What a part that is not ready shows (R2, R6, R17, R158) -/

theorem State.linkStatus_of_not_ready (h : s.power.ready = false) : s.linkStatus = 0#8 := by
  rw [State.linkStatus, h]; rfl

theorem State.attention_of_not_ready (h : s.power.ready = false) : s.attention = false := by
  rw [State.attention, h, Bool.false_and]

theorem State.pinLevel_of_not_ready (h : s.power.ready = false) (n : Fin 12) : s.pinLevel n = .opened := by
  rw [State.pinLevel, h]; rfl

/-! ### RST_N going high (R35, R187) -/

theorem Power.releaseRstn_of_low (h : p.rstnLow = true) : p.releaseRstn = { p with rstnLow := false, cause := .pin } :=
  if_pos h

theorem Power.releaseRstn_of_high (h : p.rstnLow = false) : p.releaseRstn = p :=
  if_neg (Bool.eq_false_iff.mp h)

theorem exec_rstnRelease : exec .rstnRelease s = .next (s.withPower s.power.releaseRstn) := rfl

/-- Settles O12: the three resets differ in the supply, RST_N and the cause alone, and the tables of inputs are read from
the pins. -/
theorem resetsGivePowerOnValues : Obligations.ResetsGivePowerOnValues := by
  refine fun s => ⟨fun c hc => ?reset, fun hlow => ?released, fun hhigh => ?kept⟩
  case reset =>
    have hready : (s.powerOnValues (s.power.afterReset c)).power.ready = false := rfl
    refine ⟨_, exec_reset hc, rfl, s.powerOnValues_quiet _, State.linkStatus_of_not_ready hready,
      State.attention_of_not_ready hready, State.pinLevel_of_not_ready hready, rfl, ?miso, fun p => ?count, fun n => ?din, rfl,
      fun b => ?ovl, rfl, rfl⟩
    case miso => show s.port.miso.silenced = _; cases s.port.miso <;> rfl
    case count => exact tabulate12_getElem _ p
    case din => exact tabulate8_getElem _ n
    case ovl => exact tabulate3_getElem _ b
  case released => rw [exec_rstnRelease, Power.releaseRstn_of_low hlow]; rfl
  case kept => rw [exec_rstnRelease, Power.releaseRstn_of_high hhigh]; rfl

end Sys2Proof.Machine
end

section
/-! READ_FAULTS and SEAL, the two commands whose modifier carries a number (R21, R178, R184, R186). -/

namespace Sys2Proof.Machine

variable {s : State} {m : Message} {rest : List Message}

/-! ### The header (R21) -/

/-- A modifier has no bit outside its low n bits exactly when it is a number of n bits. -/
theorem modifier_fits_iff (x : BitVec 9) (n : Nat) :
    x &&& ~~~BitVec.ofNat 9 (2 ^ n - 1) = 0#9 ↔ x.toNat < 2 ^ n := by
  have bits : ∀ i < 9, (x &&& ~~~BitVec.ofNat 9 (2 ^ n - 1)).getLsbD i = (x.getLsbD i && decide (n ≤ i)) := fun i hi => by
    rw [BitVec.getLsbD_and, BitVec.getLsbD_not, BitVec.getLsbD_ofNat, Nat.testBit_two_pow_sub_one]
    simp [hi, ← decide_not, -BitVec.getLsbD_eq_getElem]
  constructor
  · refine fun h => Nat.lt_pow_two_of_testBit _ fun i hi => ?_
    by_cases hlow : i < 9
    · have hbit := bits i hlow
      rw [h, BitVec.getLsbD_zero, decide_eq_true hi, Bool.and_true] at hbit
      exact hbit.symm
    · exact BitVec.getLsbD_of_ge x i (by omega)
  · refine fun h => BitVec.eq_of_getLsbD_eq fun i hi => ?_
    rw [bits i hi, BitVec.getLsbD_zero]
    by_cases hni : n ≤ i
    · have hbit : x.getLsbD i = false := Nat.testBit_lt_two_pow (h.trans_le (Nat.pow_le_pow_right (by decide) hni))
      rw [hbit, Bool.false_and]
    · rw [decide_eq_false hni, Bool.and_false]

/-- A device-wide command without body, whose modifier is a number of n bits, passes the checks of its header. -/
theorem exec_device_modifier {i : Instr} {f : CommandForm} {body : Message → State → State × Reply} {n : Nat} {x : BitVec 9}
    (hc : engineCommand i = some (f, body)) (hf : f = (CommandForm.device f.kind 0).withModifier (BitVec.ofNat 9 (2 ^ n - 1)))
    (hx : x.toNat < 2 ^ n) (h : s.takes m rest) (hm : m.isCommand f.kind 15#4 x) (hbody : m.body = []) :
    exec i s = .next ((body m (s.takeMessage rest)).1.admitReply m (body m (s.takeMessage rest)).2) := by
  obtain ⟨hkind, hchannel, hmodifier⟩ := hm
  rw [exec_engineCommand hc, State.command_of_takes h hkind, State.execute_of_passed]
  rw [hf]
  exact CommandForm.refusal_eq_none (by simp [CommandForm.withModifier, CommandForm.device, hbody])
    (ChannelForm.accepts_device hchannel) (by rw [hmodifier]; exact (modifier_fits_iff x n).mpr hx) (by exact nofun)

/-- A modifier with a bit above its number is refused. -/
theorem exec_device_modifier_refused {i : Instr} {f : CommandForm} {n : Nat} {x : BitVec 9} (hc : (i, f) ∈ commandForms)
    (hf : f = (CommandForm.device f.kind 0).withModifier (BitVec.ofNat 9 (2 ^ n - 1)))
    (hx : 2 ^ n ≤ x.toNat) (h : s.takes m rest) (hm : m.isCommand f.kind 15#4 x) (hbody : m.body = []) :
    exec i s = .next (s.answered m rest .badValue []) := by
  obtain ⟨hkind, hchannel, hmodifier⟩ := hm
  have hundefined : headModifier m.head &&& ~~~BitVec.ofNat 9 (2 ^ n - 1) ≠ 0#9 := fun h0 =>
    Nat.not_lt.mpr hx ((modifier_fits_iff x n).mp (hmodifier ▸ h0))
  have hrefusal : f.refusal s.sealLevel m = some .badValue := by
    rw [hf, CommandForm.refusal_eq]
    simpa [CommandForm.withModifier, CommandForm.device, ChannelForm.refuses, hbody, hchannel] using hundefined
  rw [exec_of_refused hc h hkind hrefusal, hf]
  rfl

/-! ### READ_FAULTS (R178, R184) -/

/-- The header of READ_FAULTS. -/
theorem faultsHeader_fields {records found first : Nat} (lost : Bool) (hrecords : records < 256) (hfound : found < 256)
    (hfirst : first < 256) :
    let w := placeNat 0 records ||| placeFlag 8 lost ||| placeNat 16 found ||| placeNat 24 first
    (w.extractLsb' 0 8).toNat = records ∧ w.getLsbD 8 = lost ∧ w.extractLsb' 9 7 = 0#7
      ∧ (w.extractLsb' 16 8).toNat = found ∧ (w.extractLsb' 24 8).toNat = first := by
  rw [placeNat_eq_place (w := 8) 0 hrecords, placeNat_eq_place (w := 8) 16 hfound, placeNat_eq_place (w := 8) 24 hfirst]
  refine ⟨?_, ?_, ?_, ?_, ?_⟩
  all_goals simp (disch := omega) [BitVec.extractLsb'_or, hrecords, hfound, hfirst, -BitVec.getLsbD_eq_getElem]

/-- The record word of R178. -/
theorem LedgerRecord.word_fields (r : LedgerRecord) : r.word.extractLsb' 0 16 = r.ordinal
    ∧ r.word.extractLsb' 16 4 = r.source.code ∧ r.word.extractLsb' 20 3 = r.kind.code ∧ r.word.getLsbD 23 = r.active
    ∧ r.word.extractLsb' 24 4 = r.repeats ∧ r.word.extractLsb' 28 4 = 0#4 := by
  unfold LedgerRecord.word
  refine ⟨?_, ?_, ?_, ?_, ?_, ?_⟩
  all_goals simp (disch := omega) [BitVec.extractLsb'_or, -BitVec.getLsbD_eq_getElem]

/-- READ_FAULTS on the message it requires: the records from the first index on, and the ledger-lost flag cleared. -/
theorem exec_readFaults {f : BitVec 9} (h : s.takes m rest) (hf : f.toNat < 16) (hm : m.isCommand 0x50#8 15#4 f)
    (hbody : m.body = []) : exec .readFaults s =
      .next ({ s with ledger := { s.ledger with lost := false } }.answered m rest .done (s.ledger.readBody f.toNat)) := by
  rw [exec_device_modifier (i := .readFaults) (n := 4) rfl rfl hf h hm hbody, hm.2.2]
  rfl

/-- Settles O44: the header counts at most 16 records and at most three of them in the reply. -/
theorem readFaultsReturnsRecords : Obligations.ReadFaultsReturnsRecords := by
  refine ⟨fun s m rest f h hf hm hbody hledger => ?_, fun r => ?_⟩
  · rw [exec_readFaults h hf hm hbody]
    exact ⟨_, rfl, faultsHeader_fields s.ledger.lost (by omega)
      ((List.length_take_le 3 _).trans_lt (by decide)) (by omega)⟩
  · obtain ⟨hordinal, hsource, hkind, hrest⟩ := r.word_fields
    refine ⟨hordinal, hsource.trans ?_, hkind.trans ?_, hrest⟩
    · cases r.source <;> rfl
    · cases r.kind <;> rfl

/-! ### SEAL (R186) -/

/-- The bits above the level of a SEAL are 0 exactly when the modifier is a level. -/
theorem sealModifier_iff (f : BitVec 9) : f.extractLsb' 2 7 = 0#7 ↔ f.toNat < 2 ^ 2 := by
  rw [← BitVec.toNat_inj, BitVec.extractLsb'_toNat, Nat.shiftRight_eq_div_pow]
  have := f.isLt
  simp only [BitVec.toNat_ofNat]
  omega

theorem State.raiseSeal_of_lower {level : BitVec 2} (h : level.toNat < s.sealLevel.toNat) :
    s.raiseSeal level = refuse .sealed s := if_pos h

theorem State.raiseSeal_of_raised {level : BitVec 2} (h : s.sealLevel.toNat ≤ level.toNat) :
    s.raiseSeal level = (s.withSeal level, .done [place 0 level]) := if_neg (Nat.not_lt.mpr h)

/-- SEAL with a level and nothing else in its modifier. -/
theorem exec_sealRaise {f : BitVec 9} (h : s.takes m rest) (hbody : m.body = []) (hm : m.isCommand 0x52#8 15#4 f)
    (hf : f.extractLsb' 2 7 = 0#7) : exec .sealRaise s =
      .next (((s.takeMessage rest).raiseSeal (f.extractLsb' 0 2)).1.admitReply m
        ((s.takeMessage rest).raiseSeal (f.extractLsb' 0 2)).2) := by
  rw [exec_device_modifier (i := .sealRaise) (n := 2) rfl rfl ((sealModifier_iff f).mp hf) h hm hbody, hm.2.2]

/-- Settles O46: a modifier beyond the level fails the header, and a level is taken or refused. -/
theorem sealOnlyRises : Obligations.SealOnlyRises := by
  intro s m rest f h hbody hm
  refine ⟨fun hf => ?badValue, fun hf hlevel => ?raised, fun hf hlevel => ?refused⟩
  case badValue =>
    exact exec_device_modifier_refused (f := sealForm) (n := 2) (by decide) rfl (Nat.not_lt.mp (mt (sealModifier_iff f).mpr hf)) h
      hm hbody
  case raised =>
    rw [exec_sealRaise h hbody hm hf, State.raiseSeal_of_raised (s := s.takeMessage rest) hlevel, place, BitVec.shiftLeft_zero]
    rfl
  case refused =>
    rw [exec_sealRaise h hbody hm hf, State.raiseSeal_of_lower (s := s.takeMessage rest) hlevel]
    rfl

end Sys2Proof.Machine
end

section
/-! ACK_FAULT: the oldest STANDING record, and the shut banks that its removal releases (R150, R178, R183). -/

namespace Sys2Proof.Machine

variable {s : State} {m : Message} {rest : List Message}

/-! ### The oldest STANDING record (R183) -/

theorem LedgerRecord.isFor_eq (r : LedgerRecord) (source : LedgerSource) (kind : LedgerKind) :
    r.isFor source kind = decide (r.source = source ∧ r.kind = kind) := by
  rw [LedgerRecord.isFor, Bool.decide_and]
  rfl

section
variable {l : Ledger}

/-- Behind ACTIVE records alone, a STANDING record is the oldest, and it is the one that is acknowledged. -/
theorem Ledger.oldestStanding {before after : List LedgerRecord} {r : LedgerRecord} (h : l.records = before ++ r :: after)
    (hbefore : ∀ x ∈ before, x.active = true) (hr : r.active = false) :
    l.standing = some r ∧ l.acknowledge = { l with records := before ++ after } := by
  constructor
  · rw [Ledger.standing, h]
    exact List.find?_eq_some_iff_append.mpr ⟨by simp [hr], before, after, rfl, fun x hx => by simp [hbefore x hx]⟩
  · rw [Ledger.acknowledge, h, List.eraseP_append_right _ fun x hx => by simp [hbefore x hx],
      List.eraseP_cons_of_pos (by simp [hr])]

theorem Ledger.noStanding (h : ∀ x ∈ l.records, x.active = true) : l.standing = none ∧ l.acknowledge = l := by
  constructor
  · exact List.find?_eq_none.mpr fun x hx => by simp [h x hx]
  · rw [Ledger.acknowledge, List.eraseP_of_forall_not fun x hx => by simp [h x hx]]

end

/-! ### The banks that are released (R150, R183) -/

/-- The ledger holds an OVERLOAD record of bank b. -/
def holdsOverload (records : List LedgerRecord) (b : Fin 3) : Bool :=
  records.any fun x => decide (x.source = .bank b ∧ x.kind = .overload)

theorem State.bankReleased_eq (s : State) (removed : Option LedgerRecord) (b : Fin 3) : s.bankReleased removed b =
    (s.matrix.shut[b] && (isOverloadOf b removed
      || (!s.safety.ovl[b].input.filtered && !holdsOverload s.ledger.acknowledge.records b))) := by
  simp only [State.bankReleased, holdsOverload, LedgerRecord.isFor_eq]

/-- The first word of the reply: the record removed. -/
def Ledger.standingWord (l : Ledger) : Word :=
  match l.standing with
  | some r => r.word
  | none => 0#32

/-- The second word of the reply: the records left, and the banks released. -/
def ackWord (records : Nat) (released : Fin 3 → Bool) : Word :=
  placeNat 0 records ||| placeFlags 0 (bankNumbers.map released) <<< 8

theorem placeFlags_shiftLeft (l : List Bool) : ∀ lo n : Nat, placeFlags lo l <<< n = placeFlags (lo + n) l := by
  induction l with
  | nil => exact fun lo n => BitVec.zero_shiftLeft n
  | cons b l ih =>
    intro lo n
    simp only [placeFlags, placeFlag, place, BitVec.shiftLeft_or_distrib, ih, ← BitVec.shiftLeft_add]
    rw [Nat.add_right_comm]

theorem ackWord_fields {records : Nat} (released : Fin 3 → Bool) (h : records < 32) :
    ((ackWord records released).extractLsb' 0 5).toNat = records ∧ (ackWord records released).extractLsb' 5 3 = 0#3
      ∧ (ackWord records released).extractLsb' 11 21 = 0#21
      ∧ ∀ b : Fin 3, (ackWord records released).getLsbD (8 + b.val) = released b := by
  rw [ackWord, placeFlags_shiftLeft, bankNumbers_eq, placeNat_eq_place (w := 5) 0 h]
  refine ⟨?_, ?_, ?_, fun b => ?_⟩
  all_goals simp (disch := omega) [BitVec.extractLsb'_or, h, -BitVec.getLsbD_eq_getElem]

theorem noBank_iff (released : Fin 3 → Bool) :
    placeFlags 0 (bankNumbers.map released) = 0#32 ↔ ∀ b : Fin 3, released b = false := by
  rw [placeFlags_zero_iff (by simp [bankNumbers]), List.forall_mem_map]
  exact ⟨fun h b => h b (mem_bankNumbers b), fun h b _ => h b⟩

/-- A bank stays shut when it is not released. -/
theorem stays_shut (shut removed asserted recorded : Bool) :
    (shut && !(shut && (removed || (!asserted && !recorded)))) = (shut && !removed && (asserted || recorded)) := by
  cases shut <;> simp

/-- A bank that is released is one that was shut and no longer is. -/
theorem released_of_shut (shut freed : Bool) : (shut && freed) = (shut && !(shut && !(shut && freed))) := by
  cases shut <;> simp

/-! ### ACK_FAULT (R183) -/

/-- The state and the reply of an ACK_FAULT that removes a record, releases banks, or both. -/
def State.acknowledged (s : State) : State × Reply :=
  ((s.withLedger s.ledger.acknowledge).withMatrix s.openBanks,
    .done [s.ledger.standingWord, ackWord s.ledger.acknowledge.records.length (s.bankReleased s.ledger.standing)])

theorem State.ackFault_refused (hnone : s.ledger.standing = none) (hbanks : ∀ b, s.bankReleased none b = false) :
    s.ackFault = refuse .nothingPending s := by
  rw [← hnone] at hbanks
  exact if_pos ⟨hnone, (noBank_iff _).mpr hbanks⟩

theorem State.ackFault_accepted
    (h : s.ledger.standing ≠ none ∨ ∃ b, s.bankReleased s.ledger.standing b = true) : s.ackFault = s.acknowledged := by
  refine if_neg fun ⟨hnone, hbanks⟩ => ?_
  obtain hsome | ⟨b, hb⟩ := h
  · exact hsome hnone
  · rw [(noBank_iff _).mp hbanks b] at hb
    cases hb

theorem State.openBanks_shut (s : State) (b : Fin 3) :
    s.openBanks.shut[b] = (s.matrix.shut[b] && !s.bankReleased s.ledger.standing b) := tabulate3_getElem _ b

theorem exec_ackFault (h : s.takes m rest) (hm : m.isCommand 0x51#8 15#4 0#9) (hbody : m.body = []) : exec .ackFault s =
    .next ((s.takeMessage rest).ackFault.1.admitReply m (s.takeMessage rest).ackFault.2) :=
  exec_device_empty (i := .ackFault) rfl rfl h hm hbody

theorem exec_ackFault_refused (h : s.takes m rest) (hm : m.isCommand 0x51#8 15#4 0#9) (hbody : m.body = [])
    (hnone : s.ledger.standing = none) (hbanks : ∀ b, s.bankReleased none b = false) :
    exec .ackFault s = .next (s.answered m rest .nothingPending []) := by
  rw [exec_ackFault h hm hbody, State.ackFault_refused (s := s.takeMessage rest) hnone hbanks]
  rfl

theorem exec_ackFault_accepted (h : s.takes m rest) (hm : m.isCommand 0x51#8 15#4 0#9) (hbody : m.body = [])
    (haccepts : s.ledger.standing ≠ none ∨ ∃ b, s.bankReleased s.ledger.standing b = true) :
    exec .ackFault s = .next { s.answered m rest .done
        [s.ledger.standingWord, ackWord s.ledger.acknowledge.records.length (s.bankReleased s.ledger.standing)] with
      ledger := s.ledger.acknowledge, matrix := s.openBanks } := by
  rw [exec_ackFault h hm hbody, State.ackFault_accepted (s := s.takeMessage rest) haccepts]
  rfl

/-- Settles O45: the record that is acknowledged, if there is one, and the banks that are released. -/
theorem ackFaultRemovesOldestStanding : Obligations.AckFaultRemovesOldestStanding := by
  intro s m rest h hm hbody hledger
  refine ⟨fun before after r hrecords hbefore hr => ?removes, fun hactive => ?_⟩
  case removes =>
    obtain ⟨hstanding, hack⟩ := Ledger.oldestStanding hrecords hbefore hr
    have hlength : before.length + after.length < 32 := by
      have := congrArg List.length hrecords
      simp only [List.length_append, List.length_cons] at this
      omega
    have hreleased : ∀ b, s.bankReleased (some r) b = (s.matrix.shut[b] && (decide (r.source = .bank b ∧ r.kind = .overload)
        || (!s.safety.ovl[b].input.filtered && !holdsOverload (before ++ after) b))) := fun b => by
      rw [State.bankReleased_eq, hack, isOverloadOf, LedgerRecord.isFor_eq]
    obtain ⟨hcount, hlow, hhigh, hbanks⟩ := ackWord_fields (s.bankReleased (some r)) hlength
    rw [exec_ackFault_accepted h hm hbody (.inl (by rw [hstanding]; exact nofun)), Ledger.standingWord, hstanding, hack,
      List.length_append]
    refine ⟨_, _, rfl, rfl, fun b => ?_, ⟨hcount, hlow, hhigh⟩, fun b => (hbanks b).trans ?_⟩
    · exact (s.openBanks_shut b).trans (by rw [hstanding, hreleased, stays_shut]; rfl)
    · show _ = (_ && !s.openBanks.shut[b])
      rw [s.openBanks_shut, hstanding, hreleased, ← released_of_shut]
  obtain ⟨hstanding, hack⟩ := Ledger.noStanding hactive
  have hreleased : ∀ b, s.bankReleased none b = (s.matrix.shut[b] && !s.safety.ovl[b].input.filtered
      && !holdsOverload s.ledger.records b) := fun b => by
    rw [State.bankReleased_eq, hack, isOverloadOf, Bool.false_or, Bool.and_assoc]
  refine ⟨fun hnone => ?refused, fun hsome => ?releases⟩
  case refused =>
    exact exec_ackFault_refused h hm hbody hstanding fun b => (hreleased b).trans (hnone b)
  case releases =>
    obtain ⟨b, hb⟩ := hsome
    obtain ⟨hcount, hlow, hhigh, hbanks⟩ := ackWord_fields (s.bankReleased none) (hledger.trans_lt (by decide))
    rw [exec_ackFault_accepted h hm hbody (.inr ⟨b, by rw [hstanding, hreleased]; exact hb⟩), Ledger.standingWord,
      hstanding, hack]
    refine ⟨_, _, rfl, rfl, fun b => ?_, ⟨hcount, hlow, hhigh⟩, fun b => (hbanks b).trans (hreleased b)⟩
    exact (s.openBanks_shut b).trans (by rw [hstanding, hreleased]; rfl)

end Sys2Proof.Machine
end

section
/-! ENGINE_RESET (R5, R39, R47, R57, R158, R160, R172, R177, R185, R188, R189). -/

namespace Sys2Proof.Machine

variable {s : State} {m : Message} {rest : List Message}

/-! ### Step 1: the channels (R39, R47, R57, R188) -/

/-- The channels, their handed flags and their records after step 1, with the candidates as they were. -/
def State.freshChannels (s : State) : State :=
  { s with
    channels := Vector.replicate 6 Channel.reset
    trip := { s.trip with handed := Vector.replicate 6 false }
    ledger := { s.ledger with records := s.ledger.records.map (LedgerRecord.stands channelNumbers) } }

theorem State.resetChannels_eq (s : State) : s.resetChannels = State.refilter s s.freshChannels := by
  rw [State.resetChannels, State.standChannels_eq]
  rfl

theorem State.resetChannels_fields (s : State) :
    s.resetChannels = { s.freshChannels with inputs := s.resetChannels.inputs } := by
  rw [State.resetChannels_eq]
  exact (State.refilter_cases s s.freshChannels 0).2

theorem State.resetChannels_sealLevel (s : State) : s.resetChannels.sealLevel = s.sealLevel := by
  rw [s.resetChannels_fields]
  rfl

theorem State.resetChannels_active (s : State) (k : Fin 6) : (s.resetChannels.chan k).active = ChannelConfig.default := by
  rw [s.resetChannels_cases.2.2.2]
  rfl

/-- Every pin is filtered by its own channel, with the default setting. -/
theorem State.resetChannels_filter (s : State) (p : Fin 12) :
    s.resetChannels.filterChannel p = channelOfPin p ∧ s.resetChannels.countFilterOf p = 1#2 := by
  refine ⟨?_, ?_⟩
  · simp [State.filterChannel, State.resetChannels_active, ChannelConfig.default]
  · rw [State.countFilterOf, State.resetChannels_active]
    rfl

theorem State.resetChannels_inputs (s : State) (h : s.instant = none) : s.resetChannels.inputs.restarted = s.inputs.restarted
    ∧ s.resetChannels.inputs.din = s.inputs.din
    ∧ ∀ p : Fin 12, s.resetChannels.countPin p =
      if s.filterChannel p = channelOfPin p ∧ s.countFilterOf p = 1#2 then s.countPin p
      else { s.countPin p with held := (s.countPin p).held.map fun _ => 0 } := by
  have hrestarts : s.onlyRestarts s.resetChannels := by
    rw [State.resetChannels_eq]
    exact State.refilter_onlyRestarts rfl
  obtain ⟨-, -, -, hrestarted⟩ := State.refilterPins s countPinNumbers s.freshChannels (by decide)
  refine ⟨?_, hrestarts.1, fun p => ?_⟩
  · rw [State.resetChannels_eq]
    exact hrestarted h
  · obtain ⟨hchannel, hfilter⟩ := s.resetChannels_filter p
    rw [hrestarts.2 p, hchannel, hfilter]

/-! ### Steps 2, 3 and 5: lines, pairs and DINs (R57, R158, R185) -/

theorem Line.engineReset_eq (l : Line) (level : Nat) : l.engineReset (decide (3 ≤ level)) (decide (2 ≤ level)) =
    { owner := if 3 ≤ level then l.owner else .nobody
      inverted := if 2 ≤ level then l.inverted else false
      safe := if 2 ≤ level then l.safe else .opened
      active := false
      pulseLeft := none } := by
  by_cases h : 2 ≤ level <;> simp [Line.engineReset, h]

theorem State.resetMatrix_line (s : State) (n : Fin 12) :
    s.resetMatrix.lines[n] = (s.line n).engineReset s.keepsBindings s.keepsShapes := tabulate12_getElem _ n

theorem State.resetMatrix_pair (s : State) (j : Fin 6) : s.resetMatrix.pairs[j] =
    (s.pair j).engineReset s.keepsShapes (s.resetMatrix.lines[evenLine j].owner != .nobody)
      (s.trip.permit == .permitted) := by
  rw [State.resetMatrix_line]
  exact tabulate6_getElem _ j

theorem Pair.engineReset_settings (p : Pair) (level : Nat) (stillOwned wasPermitted : Bool) :
    (p.engineReset (decide (2 ≤ level)) stillOwned wasPermitted).paired = (if 2 ≤ level then p.paired else false)
      ∧ (p.engineReset (decide (2 ≤ level)) stillOwned wasPermitted).gap = (if 2 ≤ level then p.gap else 10#8) := by
  by_cases h : 2 ≤ level <;> simp [Pair.engineReset, Pair.reset, h]

/-- The gap phase after ENGINE_RESET follows from the pairing and the gap that it leaves. -/
theorem Pair.engineReset_gapLeft (p : Pair) (keepShape : Bool) (owner : Owner) (permit : Permit) :
    let q := p.engineReset keepShape (owner != .nobody) (permit == .permitted)
    q.gapLeft = if q.paired = true ∧ owner ≠ .nobody ∧ permit = .permitted then some (q.gap.toNat * microsecond) else none := by
  simp only [Pair.engineReset, Bool.and_eq_true, bne_iff_ne, beq_iff_eq, and_assoc]

theorem DiscreteInput.configure_default (d : DiscreteInput) : d.configure 2#2 false =
    ⟨{ d.input with held := if d.code = 2#2 then d.input.held else d.input.held.map fun _ => 0 }, 2#2, false⟩ := by
  rw [DiscreteInput.configure]
  by_cases h : d.code = 2#2
  · rw [if_pos h, if_pos h.symm]
  · rw [if_neg h, if_neg (Ne.symm h)]
    rfl

theorem State.resetDins_din (s : State) (n : Fin 8) : s.resetDins.din[n] =
    if 3 ≤ s.sealLevel.toNat then s.inputs.din[n] else s.inputs.din[n].configure 2#2 false := by
  unfold State.resetDins State.keepsBindings
  by_cases h : 3 ≤ s.sealLevel.toNat
  · simp [h]
  · simp only [h, decide_false, Bool.false_eq_true, if_false]
    exact tabulate8_getElem _ n

theorem State.resetDins_count (s : State) : s.resetDins.count = s.inputs.count ∧ s.resetDins.restarted = s.inputs.restarted := by
  unfold State.resetDins
  split <;> exact ⟨rfl, rfl⟩

/-! ### Step 4: the Trip Unit and the records (R160, R172, R179) -/

theorem Permit.afterEngineReset_eq (p : Permit) : p.afterEngineReset = if p = .permitted then .withheld else p := by
  cases p <;> rfl

theorem TripUnit.engineReset_eq (t : TripUnit) (level : Nat) : t.engineReset (decide (1 ≤ level)) = { t with
    permit := if t.permit = .permitted then .withheld else t.permit
    config := if 1 ≤ level then t.config else .reset
    watchLeft := if (if 1 ≤ level then t.config else .reset).watch = 0#8 then none else t.watchLeft } := by
  simp only [TripUnit.engineReset, Permit.afterEngineReset_eq, decide_eq_true_eq]

/-- A record after ENGINE_RESET: a channel's is STANDING, and the TRIP_INPUT record follows the cause. -/
def LedgerRecord.engineReset (present : Bool) (r : LedgerRecord) : LedgerRecord :=
  match r.source, r.kind with
  | .channel _, .stall | .channel _, .overflow => { r with active := false }
  | .tripIn, .tripInput => { r with active := present }
  | _, _ => r

theorem LedgerRecord.stands_channel {r : LedgerRecord} {k : Fin 6} (hsource : r.source = .channel k)
    (hkind : r.kind = .stall ∨ r.kind = .overflow) : r.stands channelNumbers = { r with active := false } := by
  have hany : channelNumbers.any (fun i => (r.source == .channel i) && (r.kind == .stall || r.kind == .overflow)) = true :=
    List.any_eq_true.mpr ⟨k, mem_channelNumbers k, by simp [hsource, hkind]⟩
  rw [LedgerRecord.stands, hany, Bool.not_true, Bool.and_false]

theorem LedgerRecord.stands_other {r : LedgerRecord} (h : (∀ k, r.source ≠ .channel k) ∨ (r.kind ≠ .stall ∧ r.kind ≠ .overflow)) :
    r.stands channelNumbers = r := by
  have hany : channelNumbers.any (fun i => (r.source == .channel i) && (r.kind == .stall || r.kind == .overflow)) = false := by
    refine List.any_eq_false.mpr fun k _ hk => ?_
    simp only [Bool.and_eq_true, Bool.or_eq_true, beq_iff_eq] at hk
    obtain hsource | ⟨hstall, hoverflow⟩ := h
    · exact hsource k hk.1
    · exact hk.2.elim hstall hoverflow
  rw [LedgerRecord.stands, hany, Bool.not_false, Bool.and_true]

theorem LedgerRecord.engineReset_eq (present : Bool) (r : LedgerRecord) : r.engineReset present =
    if (r.stands channelNumbers).source = .tripIn ∧ (r.stands channelNumbers).kind = .tripInput then
      { r.stands channelNumbers with active := present }
    else r.stands channelNumbers := by
  obtain ⟨ordinal, source, kind, active, repeats⟩ := r
  cases source with
  | channel k =>
    rw [if_neg (by simp [LedgerRecord.stands])]
    cases kind with
    | stall => exact (LedgerRecord.stands_channel rfl (.inl rfl)).symm
    | overflow => exact (LedgerRecord.stands_channel rfl (.inr rfl)).symm
    | overload | supplyLoss | tripInput | softTrip | hostLost =>
      rw [LedgerRecord.stands_other (.inr ⟨by simp, by simp⟩)]
      rfl
  | tripIn =>
    rw [LedgerRecord.stands_other (.inl (by simp))]
    cases kind <;> rfl
  | bank b | host | supply | soft =>
    rw [LedgerRecord.stands_other (.inl (by simp)), if_neg (by simp)]
    cases kind <;> rfl

/-! ### Step 6: the queues (R5, R189) -/

/-- What becomes of an opened pop slot: what it presented is discarded, and a refused slot stays refused. -/
def Slot.voided (x : Slot) : Slot :=
  match x.outcome with
  | .hands => { x with outcome := .void }
  | .refuses | .void => x

theorem Slot.voided_eq (x : Slot) : x.voided = if x.outcome = .hands then { x with outcome := .void } else x := by
  obtain ⟨presented, outcome⟩ := x
  cases outcome <;> rfl

theorem Transaction.voidPop_eq (t : Transaction) : t.voidPop =
    if t.command = some 0x8A#8 ∨ t.command = some 0x8B#8 then { t with slot := t.slot.map Slot.voided } else t := by
  rw [Transaction.voidPop, funext Slot.voided_eq]
  rfl

/-! ### All steps -/

/-- TRIP_IN is present under the polarity that ENGINE_RESET leaves. -/
def State.tripInAfterReset (s : State) : Bool :=
  s.tripInPresentUnder (if s.keepsTrip then s.trip.config else TripConfig.reset).tripInActiveHigh

/-- Every field after ENGINE_RESET. -/
theorem State.engineReset_fields (s : State) : s.engineReset = { s with
    port := s.port.engineReset
    out := { s.out with rnq := [] }
    inputs := s.resetChannels.resetDins
    channels := Vector.replicate 6 Channel.reset
    matrix := s.resetMatrix
    trip := TripUnit.engineReset { s.trip with handed := Vector.replicate 6 false } s.keepsTrip
    ledger := { s.ledger with records := s.ledger.records.map (LedgerRecord.engineReset s.tripInAfterReset) } } := by
  have hfields := s.resetChannels_fields
  simp only [State.engineReset, State.recomputeTripIn, State.setCondition_eq]
  generalize s.resetChannels = t at hfields ⊢
  rw [hfields, funext (LedgerRecord.engineReset_eq s.tripInAfterReset)]
  refine State.eq_of_fields rfl rfl rfl rfl rfl rfl rfl rfl rfl ?_ rfl rfl
  exact congrArg (Ledger.mk · s.ledger.lost) (List.map_map ..)

/-- ENGINE_RESET on the message that it requires. -/
theorem exec_engineReset (h : s.takes m rest) (hm : m.isCommand 0x53#8 15#4 0#9) (hbody : m.body = []) :
    exec .engineReset s = .next { s with
      port := { s.port with ciq := [], popBuffer := [], transaction := s.port.transaction.map Transaction.voidPop }
      out := { s.out with
        rnq := [replyMessage m ⟨.done, [BitVec.ofNat 32 rest.length, BitVec.ofNat 32 s.out.rnq.length]⟩], reserved := false }
      inputs := (s.takeMessage rest).resetChannels.resetDins
      channels := Vector.replicate 6 Channel.reset
      matrix := s.resetMatrix
      trip := TripUnit.engineReset { s.trip with handed := Vector.replicate 6 false } s.keepsTrip
      ledger := { s.ledger with records := s.ledger.records.map (LedgerRecord.engineReset s.tripInAfterReset) }
      instant := none } := by
  rw [exec_device_empty (i := .engineReset) rfl rfl h hm hbody, State.engineReset_fields]
  simp only [placeNat, BitVec.shiftLeft_zero]
  rfl

/-- Settles O47: what each step leaves of its part of the state. -/
theorem engineResetResetsUnsealed : Obligations.EngineResetResetsUnsealed := by
  intro s m rest h hm hbody level
  obtain ⟨hrestarted, hdin, hcount⟩ := (s.takeMessage rest).resetChannels_inputs rfl
  obtain ⟨hkeptCount, hkeptRestarted⟩ := (s.takeMessage rest).resetChannels.resetDins_count
  refine ⟨_, exec_engineReset h hm hbody, rfl, rfl, ?transaction, rfl, hkeptRestarted.trans hrestarted, fun n => ?din,
    fun p => ?count, fun n => ?line, fun j => ⟨?paired, ?gap, ?gapLeft⟩, rfl, ?trip, rfl, ?records⟩
  case transaction =>
    show s.port.transaction.map Transaction.voidPop = _
    rw [funext Transaction.voidPop_eq]
    rfl
  case din =>
    refine (State.resetDins_din _ n).trans ?_
    rw [State.resetChannels_sealLevel, hdin, DiscreteInput.configure_default]
    rfl
  case count =>
    refine Eq.trans ?_ (hcount p)
    exact congrArg (·[p]) hkeptCount
  case line => exact (s.resetMatrix_line n).trans (Line.engineReset_eq _ _)
  case paired =>
    show s.resetMatrix.pairs[j].paired = _
    rw [s.resetMatrix_pair]
    exact (Pair.engineReset_settings _ _ _ _).1
  case gap =>
    show s.resetMatrix.pairs[j].gap = _
    rw [s.resetMatrix_pair]
    exact (Pair.engineReset_settings _ _ _ _).2
  case gapLeft =>
    show s.resetMatrix.pairs[j].gapLeft = if s.resetMatrix.pairs[j].paired = true ∧ s.resetMatrix.lines[evenLine j].owner ≠ .nobody
      ∧ s.trip.permit = .permitted then some (s.resetMatrix.pairs[j].gap.toNat * microsecond) else none
    rw [s.resetMatrix_pair]
    exact Pair.engineReset_gapLeft _ _ _ _
  case trip =>
    simp only [State.keepsTrip, TripUnit.engineReset_eq]
    rfl
  case records => rfl

end Sys2Proof.Machine
end
